-- ==== Sys2Proof/Word.lean ====
section
/-! DEFINITION. The value types of the holani Timers block (00_scope.md rule R14, 30_encoding.md rule R107): names for the
widths the spec uses. Bit 0 is the least significant bit everywhere (rule R13). -/

namespace Sys2Proof

/-- `u8`, and the bit pattern of an `i8` (rule R14). -/
abbrev Byte := BitVec 8

/-- A transaction word, 10 bits (rule R107). -/
abbrev Word := BitVec 10

/-- A 16-bit I/O address (rule R80, ADDRESS_WIDTH of rule R10). -/
abbrev Addr := BitVec 16

/-- `u64`: a tick (TICK_WIDTH of rule R10). -/
abbrev Tick := BitVec 64

/-- `Tick∞` of rule R14: a tick, or NEVER (92_eei_decisions.md D27: a value distinct from every tick). -/
abbrev TickInf := Option Tick

/-- NEVER of rule R14. -/
abbrev never : TickInf := none

/-- `u12`: the LFSR and the tap mask (LFSR_WIDTH of rule R10). -/
abbrev U12 := BitVec 12

/-- The 16-bit audio sample AUDIOOUT returns (42_orchestrator.md rule R196). -/
abbrev Sample := BitVec 16

end Sys2Proof
end

