-- ==== Sys2Proof/Machine/Arith.lean ====
section
/-! DEFINITION. The arithmetic the rules use: saturating signed 8-bit arithmetic (00_scope.md rule R15), the population count and
the sign extension of rule R14. -/

namespace Sys2Proof.Machine

/-- `sat8` of rule R15: the exact integer clamped to -128..127, as an i8 bit pattern. -/
def sat8 (n : Int) : Byte :=
  if n < -128 then BitVec.ofInt 8 (-128)
  else if 127 < n then BitVec.ofInt 8 127
  else BitVec.ofInt 8 n

/-- `sadd8` of rule R15. -/
def sadd8 (a b : Byte) : Byte := sat8 (a.toInt + b.toInt)

/-- `ssub8` of rule R15. -/
def ssub8 (a b : Byte) : Byte := sat8 (a.toInt - b.toInt)

/-- `sneg8` of rule R15. -/
def sneg8 (a : Byte) : Byte := sat8 (-a.toInt)

/-- `popcount` of rule R14, of a 12-bit value. -/
def popcount (v : U12) : Nat := (List.range 12).countP (fun k => v.getLsbD k)

/-- `sext_16` of rule R14. -/
def sext16 (v : Byte) : Sample := v.signExtend 16

end Sys2Proof.Machine
end

