-- ==== Sys2Proof/Config.lean ====
section
/-! DEFINITION. The configuration of the model (00_scope.md rule R10): the parameters the spec leaves open or decides with a
parameter, the check of rule R11, and the constant `Params.chip`, an arbitrary choice of them of which nothing is known. -/

namespace Sys2Proof

/-- OUTPUT_SENSE (92_eei_decisions.md D8): which LFSR bit value gives +volume. -/
inductive OutputSense where
  | literal
  | inverted
deriving DecidableEq, Repr, Inhabited

/-- CTLA_BIT6_READ (D13): what a ControlA read returns in bit 6. -/
inductive CtlaBit6Read where
  | asWritten
  | zero
deriving DecidableEq, Repr, Inhabited

/-- FASTPATH_TICK (D18): what a clock tick does to an audio timer whose fast-path flag is set. -/
inductive FastpathTick where
  | frozen
  | idle
deriving DecidableEq, Repr, Inhabited

/-- LINKED_GATE (D19): which linked timers count on a cascade pulse. -/
inductive LinkedGate where
  | none
  | countEnable
  | enableAndNotDone
deriving DecidableEq, Repr, Inhabited

/-- The parameters of rule R10 that are not fixed: BASE_TICK_UNIT, TIMER_BASE, AUDIO_BASE, CTLA7_TAP_POS, OUTPUT_SENSE,
CTLA_BIT6_READ, FASTPATH_TICK, LINKED_GATE. -/
structure Params where
  baseTickUnit : Nat
  timerBase    : Addr
  audioBase    : Addr
  ctla7TapPos  : Fin 12
  outputSense  : OutputSense
  ctlaBit6Read : CtlaBit6Read
  fastpathTick : FastpathTick
  linkedGate   : LinkedGate
deriving DecidableEq, Repr, Inhabited

/-- Rule R11: BASE_TICK_UNIT is at least 1, both windows lie inside `[0, 0xFFFF]`, and they do not overlap. -/
abbrev Params.Valid (p : Params) : Prop :=
  1 ≤ p.baseTickUnit ∧
  p.timerBase.toNat + 31 ≤ 0xFFFF ∧
  p.audioBase.toNat + 31 ≤ 0xFFFF ∧
  (p.timerBase.toNat + 31 < p.audioBase.toNat ∨ p.audioBase.toNat + 31 < p.timerBase.toNat)

/-- A configuration: parameters that meet rule R11. Parameters that break the rule build no machine. -/
structure Config extends Params where
  valid : toParams.Valid
deriving DecidableEq, Repr

/-- Building a configuration, refused (`none`) where rule R11 is broken. -/
def Config.ofParams (p : Params) : Option Config :=
  if h : p.Valid then some ⟨p, h⟩ else none

/-- The example configuration of 92_eei_decisions.md D28, with the default of every decided parameter (rule R10). No rule
depends on it; the vectors of 95_test_vectors.md use it. -/
def Config.exampleD28 : Config where
  baseTickUnit := 16
  timerBase := 0xFD00
  audioBase := 0xFD20
  ctla7TapPos := 7
  outputSense := .literal
  ctlaBit6Read := .asWritten
  fastpathTick := .frozen
  linkedGate := .countEnable
  valid := by decide

/-- FREE VALUE: the parameters of the chip at hand, which the spec leaves open (93_implementation_defined.md I3 to I10). -/
opaque Params.chip : Params

/-- The configuration of the machine after power-on: any configuration that meets rule R11. -/
def Config.chip : Config :=
  (Config.ofParams Params.chip).getD Config.exampleD28

end Sys2Proof
end

