-- ==== Sys2Proof/Syntax.lean ====
section
/-! DEFINITION. The operations of the block as syntax: `Instr`, one constructor per row of spec/opcode_table.json (30_encoding.md
rule R111), the transaction that carries one (rule R107), and the calls a host can make (20_memory.md rule R82). -/

namespace Sys2Proof

/-- One constructor per row of the opcode map (rule R111). Operands are the fields of the word and the data beside it
(rules R108, R110): `i` is a base timer id `iii`, `c` an audio channel `cc` (timer `8 + c`), `v` the byte `D[7:0]`,
`t` the tick `T[63:0]`. -/
inductive Instr where
  | peekBkup (i : BitVec 3)
  | peekCtla (i : BitVec 3)
  | peekCnt (i : BitVec 3)
  | peekCtlb (i : BitVec 3)
  | peekAvol (c : BitVec 2)
  | peekAfb (c : BitVec 2)
  | peekAout (c : BitVec 2)
  | peekAshift (c : BitVec 2)
  | peekAbkup (c : BitVec 2)
  | peekActla (c : BitVec 2)
  | peekAcnt (c : BitVec 2)
  | peekActlb (c : BitVec 2)
  | pokeBkup (i : BitVec 3) (v : Byte)
  | pokeCtla (i : BitVec 3) (v : Byte)
  | pokeCnt (i : BitVec 3) (v : Byte)
  | pokeCtlb (i : BitVec 3) (v : Byte)
  | pokeAvol (c : BitVec 2) (v : Byte)
  | pokeAfb (c : BitVec 2) (v : Byte)
  | pokeAout (c : BitVec 2) (v : Byte)
  | pokeAshift (c : BitVec 2) (v : Byte)
  | pokeAbkup (c : BitVec 2) (v : Byte)
  | pokeActla (c : BitVec 2) (v : Byte)
  | pokeAcnt (c : BitVec 2) (v : Byte)
  | pokeActlb (c : BitVec 2) (v : Byte)
  | tickAll (t : Tick)
  | hsync
  | vsync
  | trig (id : BitVec 4)
  | audioOut (n : BitVec 6)
  | reset
deriving DecidableEq, Repr

/-- A transaction word with the data operands beside it (rule R107). The op field alone says which of the two accompanies
the word (rule R115); the other is not looked at. -/
structure Transaction where
  word : Word
  data : Byte
  tick : Tick
deriving DecidableEq, Repr

/-- A call of the host: an operation given by its transaction word (rule R107), or a peek or a poke of a 16-bit address
(rules R82, R219), which the block decodes first (rule R102). -/
inductive Request where
  | transaction (x : Transaction)
  | peek (addr : Addr)
  | poke (addr : Addr) (v : Byte)
deriving DecidableEq, Repr

end Sys2Proof
end

