-- ==== Sys2Proof/WellFormed.lean ====
section
/-! DEFINITION. Which terms of `Instr` are instructions of the opcode map: every operand field but one admits every value
(30_encoding.md rules R109, R113); the timer id of TRIG is 0 to 11 (rules R108, R112). -/

namespace Sys2Proof

/-- The check: TRIG takes a timer id in 0..11 (42_orchestrator.md rule R195); nothing else can be ill-formed. -/
def Instr.wellFormed : Instr → Bool
  | .peekBkup _ => true
  | .peekCtla _ => true
  | .peekCnt _ => true
  | .peekCtlb _ => true
  | .peekAvol _ => true
  | .peekAfb _ => true
  | .peekAout _ => true
  | .peekAshift _ => true
  | .peekAbkup _ => true
  | .peekActla _ => true
  | .peekAcnt _ => true
  | .peekActlb _ => true
  | .pokeBkup _ _ => true
  | .pokeCtla _ _ => true
  | .pokeCnt _ _ => true
  | .pokeCtlb _ _ => true
  | .pokeAvol _ _ => true
  | .pokeAfb _ _ => true
  | .pokeAout _ _ => true
  | .pokeAshift _ _ => true
  | .pokeAbkup _ _ => true
  | .pokeActla _ _ => true
  | .pokeAcnt _ _ => true
  | .pokeActlb _ _ => true
  | .tickAll _ => true
  | .hsync => true
  | .vsync => true
  | .trig id => decide (id.toNat < 12)
  | .audioOut _ => true
  | .reset => true

end Sys2Proof
end

