-- ==== Sys2Proof/Decode.lean ====
section
/-! DEFINITION. Decoding and encoding: the transaction word (30_encoding.md rules R107 to R115), the register address decode of the
two windows (rules R101 to R104), and the call of a host as an instruction (rule R109). The decoder is total: it answers an
instruction or one of the named rejections of rules R90 and R112. The encoder is written from the same opcode map. -/

namespace Sys2Proof

/-- Why a call names no instruction. -/
inductive Reject where
  /-- A reserved word (rule R112), with the word. -/
  | reservedOp (w : Word)
  /-- A TRIG word with a timer id of 12 to 15 (rule R112), with the word. -/
  | badTimerId (w : Word)
  /-- An address outside both windows (rule R102), with the address. -/
  | badAddress (addr : Addr)
deriving DecidableEq, Repr

/-! ## The transaction word -/

/-- `W[9:6]` (rule R107). -/
def opField (w : Word) : BitVec 4 := w.extractLsb' 6 4

/-- `W[5:0]` (rule R107). -/
def operandField (w : Word) : BitVec 6 := w.extractLsb' 0 6

/-- A peek in the base-timer window: the kind is `off[1:0]` (rule R103). -/
def peekBase (i : BitVec 3) (k : BitVec 2) : Instr :=
  match k.toNat with
  | 0 => .peekBkup i
  | 1 => .peekCtla i
  | 2 => .peekCnt i
  | _ => .peekCtlb i

/-- A peek in the audio-timer window: the kind is `off[2:0]` (rule R104). -/
def peekAudio (c : BitVec 2) (k : BitVec 3) : Instr :=
  match k.toNat with
  | 0 => .peekAvol c
  | 1 => .peekAfb c
  | 2 => .peekAout c
  | 3 => .peekAshift c
  | 4 => .peekAbkup c
  | 5 => .peekActla c
  | 6 => .peekAcnt c
  | _ => .peekActlb c

/-- A poke in the base-timer window (rule R103). -/
def pokeBase (i : BitVec 3) (k : BitVec 2) (v : Byte) : Instr :=
  match k.toNat with
  | 0 => .pokeBkup i v
  | 1 => .pokeCtla i v
  | 2 => .pokeCnt i v
  | _ => .pokeCtlb i v

/-- A poke in the audio-timer window (rule R104). -/
def pokeAudio (c : BitVec 2) (k : BitVec 3) (v : Byte) : Instr :=
  match k.toNat with
  | 0 => .pokeAvol c v
  | 1 => .pokeAfb c v
  | 2 => .pokeAout c v
  | 3 => .pokeAshift c v
  | 4 => .pokeAbkup c v
  | 5 => .pokeActla c v
  | 6 => .pokeAcnt c v
  | _ => .pokeActlb c v

/-- The register a PEEK word names by `W[5:0] = {win, off}` (rules R103, R104, R109). -/
def decodePeek (f : BitVec 6) : Instr :=
  if f.getLsbD 5 then peekAudio (f.extractLsb' 3 2) (f.extractLsb' 0 3)
  else peekBase (f.extractLsb' 2 3) (f.extractLsb' 0 2)

/-- The register a POKE word names (rules R103, R104, R109), with the byte beside the word. -/
def decodePoke (f : BitVec 6) (v : Byte) : Instr :=
  if f.getLsbD 5 then pokeAudio (f.extractLsb' 3 2) (f.extractLsb' 0 3) v
  else pokeBase (f.extractLsb' 2 3) (f.extractLsb' 0 2) v

/-- An operation whose operand field must be zero (rules R108, R112). -/
def decodeNoOperand (w : Word) (i : Instr) : Except Reject Instr :=
  if operandField w = 0 then .ok i else .error (.reservedOp w)

/-- TRIG (rules R108, R112): `W[5:4]` must be 0, then `W[3:0]` must be a timer id. A word that breaks both is reserved
(DEDUCED from rule R270: log entry 6). -/
def decodeTrig (w : Word) : Except Reject Instr :=
  if w.extractLsb' 4 2 ≠ 0 then .error (.reservedOp w)
  else if 12 ≤ (w.extractLsb' 0 4).toNat then .error (.badTimerId w)
  else .ok (.trig (w.extractLsb' 0 4))

/-- The decoder of the transaction word (rules R108, R111, R112, R114): total on every word and every data operand. -/
def decode (x : Transaction) : Except Reject Instr :=
  match (opField x.word).toNat with
  | 0 => .ok (decodePeek (operandField x.word))
  | 1 => .ok (decodePoke (operandField x.word) x.data)
  | 2 => decodeNoOperand x.word (.tickAll x.tick)
  | 3 => decodeNoOperand x.word .hsync
  | 4 => decodeNoOperand x.word .vsync
  | 5 => decodeTrig x.word
  | 6 => .ok (.audioOut (operandField x.word))
  | 7 => decodeNoOperand x.word .reset
  | _ => .error (.reservedOp x.word)

/-! ## Addresses -/

/-- Rule R102: the window and the offset an address decodes to, with unbounded integer comparison; `none` outside both. -/
def decodeAddr (cfg : Config) (addr : Addr) : Option (BitVec 1 × BitVec 5) :=
  if cfg.timerBase.toNat ≤ addr.toNat ∧ addr.toNat ≤ cfg.timerBase.toNat + 31 then
    some (0, BitVec.ofNat 5 (addr.toNat - cfg.timerBase.toNat))
  else if cfg.audioBase.toNat ≤ addr.toNat ∧ addr.toNat ≤ cfg.audioBase.toNat + 31 then
    some (1, BitVec.ofNat 5 (addr.toNat - cfg.audioBase.toNat))
  else none

/-- Rule R109: the word of an access is `{op, win, off}`. -/
def accessWord (op : BitVec 4) (p : BitVec 1 × BitVec 5) : Word := op ++ (p.1 ++ p.2)

/-- The instruction a host call names (rules R82, R109, R219, R117 `peek` and `poke`): an address is decoded first, and one
outside both windows has no word (rule R90). -/
def Request.toInstr (cfg : Config) (r : Request) : Except Reject Instr :=
  match r with
  | .transaction x => decode x
  | .peek addr =>
    match decodeAddr cfg addr with
    | none => .error (.badAddress addr)
    | some p => decode ⟨accessWord 0 p, 0, 0⟩
  | .poke addr v =>
    match decodeAddr cfg addr with
    | none => .error (.badAddress addr)
    | some p => decode ⟨accessWord 1 p, v, 0⟩

/-! ## The encoder -/

/-- A base-window operand field `{0, iii, kk}` under an op (rules R103, R111). -/
def baseWord (op : BitVec 4) (i : BitVec 3) (k : BitVec 2) : Word := op ++ (0#1 ++ (i ++ k))

/-- An audio-window operand field `{1, cc, kkk}` under an op (rules R104, R111). -/
def audioWord (op : BitVec 4) (c : BitVec 2) (k : BitVec 3) : Word := op ++ (1#1 ++ (c ++ k))

/-- The transaction word of an instruction (rule R111). -/
def encodeWord : Instr → Word
  | .peekBkup i => baseWord 0b0000 i 0b00
  | .peekCtla i => baseWord 0b0000 i 0b01
  | .peekCnt i => baseWord 0b0000 i 0b10
  | .peekCtlb i => baseWord 0b0000 i 0b11
  | .peekAvol c => audioWord 0b0000 c 0b000
  | .peekAfb c => audioWord 0b0000 c 0b001
  | .peekAout c => audioWord 0b0000 c 0b010
  | .peekAshift c => audioWord 0b0000 c 0b011
  | .peekAbkup c => audioWord 0b0000 c 0b100
  | .peekActla c => audioWord 0b0000 c 0b101
  | .peekAcnt c => audioWord 0b0000 c 0b110
  | .peekActlb c => audioWord 0b0000 c 0b111
  | .pokeBkup i _ => baseWord 0b0001 i 0b00
  | .pokeCtla i _ => baseWord 0b0001 i 0b01
  | .pokeCnt i _ => baseWord 0b0001 i 0b10
  | .pokeCtlb i _ => baseWord 0b0001 i 0b11
  | .pokeAvol c _ => audioWord 0b0001 c 0b000
  | .pokeAfb c _ => audioWord 0b0001 c 0b001
  | .pokeAout c _ => audioWord 0b0001 c 0b010
  | .pokeAshift c _ => audioWord 0b0001 c 0b011
  | .pokeAbkup c _ => audioWord 0b0001 c 0b100
  | .pokeActla c _ => audioWord 0b0001 c 0b101
  | .pokeAcnt c _ => audioWord 0b0001 c 0b110
  | .pokeActlb c _ => audioWord 0b0001 c 0b111
  | .tickAll _ => 0b0010000000
  | .hsync => 0b0011000000
  | .vsync => 0b0100000000
  | .trig id => 0b0101#4 ++ (0b00#2 ++ id)
  | .audioOut n => 0b0110#4 ++ n
  | .reset => 0b0111000000

/-- The byte `D[7:0]` beside the word: the value of a POKE (rule R115); 0 where none accompanies the word. -/
def encodeData : Instr → Byte
  | .peekBkup _ => 0
  | .peekCtla _ => 0
  | .peekCnt _ => 0
  | .peekCtlb _ => 0
  | .peekAvol _ => 0
  | .peekAfb _ => 0
  | .peekAout _ => 0
  | .peekAshift _ => 0
  | .peekAbkup _ => 0
  | .peekActla _ => 0
  | .peekAcnt _ => 0
  | .peekActlb _ => 0
  | .pokeBkup _ v => v
  | .pokeCtla _ v => v
  | .pokeCnt _ v => v
  | .pokeCtlb _ v => v
  | .pokeAvol _ v => v
  | .pokeAfb _ v => v
  | .pokeAout _ v => v
  | .pokeAshift _ v => v
  | .pokeAbkup _ v => v
  | .pokeActla _ v => v
  | .pokeAcnt _ v => v
  | .pokeActlb _ v => v
  | .tickAll _ => 0
  | .hsync => 0
  | .vsync => 0
  | .trig _ => 0
  | .audioOut _ => 0
  | .reset => 0

/-- The tick `T[63:0]` beside the word: the tick of TICKALL (rule R115); 0 where none accompanies the word. -/
def encodeTick : Instr → Tick
  | .tickAll t => t
  | .peekBkup _ => 0
  | .peekCtla _ => 0
  | .peekCnt _ => 0
  | .peekCtlb _ => 0
  | .peekAvol _ => 0
  | .peekAfb _ => 0
  | .peekAout _ => 0
  | .peekAshift _ => 0
  | .peekAbkup _ => 0
  | .peekActla _ => 0
  | .peekAcnt _ => 0
  | .peekActlb _ => 0
  | .pokeBkup _ _ => 0
  | .pokeCtla _ _ => 0
  | .pokeCnt _ _ => 0
  | .pokeCtlb _ _ => 0
  | .pokeAvol _ _ => 0
  | .pokeAfb _ _ => 0
  | .pokeAout _ _ => 0
  | .pokeAshift _ _ => 0
  | .pokeAbkup _ _ => 0
  | .pokeActla _ _ => 0
  | .pokeAcnt _ _ => 0
  | .pokeActlb _ _ => 0
  | .hsync => 0
  | .vsync => 0
  | .trig _ => 0
  | .audioOut _ => 0
  | .reset => 0

/-- The transaction of an instruction. -/
def encode (i : Instr) : Transaction := ⟨encodeWord i, encodeData i, encodeTick i⟩

/-! ## The opcode table's numbering -/

/-- A transaction from the opcode table's bit numbering: the word is bits 9..0, and its data operand stands at bit 16 and up
(`D` in bits 23..16 of a POKE, `T` in bits 79..16 of TICKALL); bits 15..10 belong to nothing and are not looked at
(DESIGN CHOICE, log entry 7). Bits at `nbits` and above are 0. -/
def tableTransaction (nbits w : Nat) : Transaction :=
  let v := w % 2 ^ nbits
  ⟨BitVec.ofNat 10 v, BitVec.ofNat 8 (v / 2 ^ 16), BitVec.ofNat 64 (v / 2 ^ 16)⟩

/-- The instruction the decoder reads from a row's bits; `none` where it rejects them. -/
def decodeTableWord (nbits w : Nat) : Option Instr :=
  match decode (tableTransaction nbits w) with
  | .ok i => some i
  | .error _ => none

end Sys2Proof
end

