-- ==== Sys2Proof/Machine/State.lean ====
section
/-! DEFINITION. The state of the machine as plain data. `Block` is exactly the state 10_state.md rule R30 gives the Timers block;
`State` puts beside it the model's own fields: the configuration (an argument of the model, rule R10), the host's calls not yet
performed, and the result of the last operation. The faults are the closed set of 60_exceptions.md rule R259. -/

namespace Sys2Proof.Machine

/-- A timer record `T[i]` (rule R33). -/
structure Timer where
  backup : Byte      -- reload value (rule R34)
  ctla   : Byte      -- ControlA (rules R36, R37)
  count  : Byte      -- live counter (rule R35)
  ctlb   : Byte      -- ControlB (rules R38, R39)
  next   : TickInf   -- next-trigger tick, or NEVER (rule R40)
deriving DecidableEq, Repr

/-- An audio-settings block `A[c]` (rule R41). `volume` and `output` hold the bit pattern of an i8 (rules R14, R42, R44). -/
structure AudioSettings where
  volume   : Byte
  feedback : Byte
  shiftLo  : Byte
  output   : Byte
deriving DecidableEq, Repr

/-- The state of the block, exactly that of rule R30. -/
structure Block where
  timers : Vector Timer 12
  audio  : Vector AudioSettings 4
  trig   : Vector Bool 8
  now    : Tick
deriving DecidableEq, Repr

/-- What an operation gives the host (rules R16, R108). -/
inductive Result where
  | none                                     -- POKE, RESET
  | byte (v : Byte)                          -- PEEK: u8
  | tickAll (mask : Byte) (timer4 : Bool)    -- TICK_ALL
  | flag (b : Bool)                          -- HSYNC, VSYNC
  | tick (t : TickInf)                       -- TIMER_TRIGGER
  | sample (v : Sample)                      -- AUDIO_OUT: i16
deriving DecidableEq, Repr

/-- The state of the machine. -/
structure State where
  cfg     : Config          -- the model's configuration (rule R10); no step changes it
  block   : Block           -- the block's state (rule R30)
  pending : List Request    -- the host's calls not yet performed, next first (rule R92)
  result  : Result          -- what the last operation returned to the host (rule R16)
deriving DecidableEq, Repr

/-- The fault reasons with their recorded values (rule R259: a closed set). A fault ends the run; none of the operation's
writes takes effect (rules R16, R265). Every one is safe: the model stops where an implementation might go on. -/
inductive Fault where
  /-- A peek or poke outside both windows (rules R90, R260). Raised by `step` on an address call. Safe. -/
  | badAddress (addr : Addr)
  /-- `tick_all` with a tick below `now` (rule R261). Raised by TICKALL. Safe. -/
  | tickDecreased (t now : Tick)
  /-- A reschedule at or past 2^64 (rule R262): the timer id and the origin tick. Raised by the ControlA and Count pokes and
  by TICKALL. Safe. -/
  | tickOverflow (id : Fin 12) (origin : Tick)
  /-- A reserved transaction word (rules R112, R264). Raised by `step`. Safe. -/
  | reservedOp (w : Word)
  /-- TRIG of a timer id 12 to 15 (rules R112, R195, R264), with its word. Raised by `step` and by TRIG. Safe. -/
  | badTimerId (w : Word)
deriving DecidableEq, Repr

/-- Why an operation has no meaning. -/
inductive Refusal where
  /-- An instruction with no meaning yet, by its mnemonic. No arm of `exec` raises it. Safe. -/
  | notModelled (mnemonic : String)
deriving DecidableEq, Repr

/-- Rule R58: a timer record after power-on. -/
def Timer.reset : Timer := ⟨0x00, 0x00, 0x00, 0x00, never⟩

/-- Rule R58: an audio-settings block after power-on. -/
def AudioSettings.reset : AudioSettings := ⟨0x00, 0x00, 0x00, 0x00⟩

/-- Rule R58: the block after power-on. -/
def Block.reset : Block :=
  ⟨Vector.replicate 12 Timer.reset, Vector.replicate 4 AudioSettings.reset, Vector.replicate 8 false, 0⟩

/-- The machine after power-on under a given configuration: no call pending and no result given (DESIGN CHOICE, log entry 11). -/
def State.resetWith (cfg : Config) : State := ⟨cfg, Block.reset, [], .none⟩

/-- The machine after power-on, under an arbitrary configuration (log entry 3). -/
def State.reset : State := State.resetWith Config.chip

end Sys2Proof.Machine
end

