-- ==== Sys2Proof/Machine/Flags.lean ====
section
/-! DEFINITION. The derived fields of a timer record (10_state.md rules R45 to R49) and every write of a status bit (rules R38, R55). -/

namespace Sys2Proof.Machine

/-- The period code of a ControlA byte (rule R45). -/
def periodOf (ctla : Byte) : BitVec 3 := ctla.extractLsb' 0 3

/-- Period code 7 (rule R46). -/
def linkedOf (ctla : Byte) : Bool := periodOf ctla == 7

/-- CEN of a ControlA byte (rule R48). -/
def cenOf (ctla : Byte) : Bool := ctla.getLsbD 3

/-- `clock_ticks` (rule R47): BASE_TICK_UNIT × 2^period for period 0 to 6; used for no linked timer, where it is absent. -/
def clockTicks (cfg : Config) (ctla : Byte) : Nat := cfg.baseTickUnit * 2 ^ (periodOf ctla).toNat

/-- `period(i)` (rule R45). -/
def Timer.period (T : Timer) : BitVec 3 := periodOf T.ctla

/-- `linked(i)` (rule R46). -/
def Timer.linked (T : Timer) : Bool := linkedOf T.ctla

/-- `cen(i)` (rule R48). -/
def Timer.cen (T : Timer) : Bool := cenOf T.ctla

/-- `reload(i)` (rule R48). -/
def Timer.reload (T : Timer) : Bool := T.ctla.getLsbD 4

/-- `integ(i)` (rule R48). -/
def Timer.integ (T : Timer) : Bool := T.ctla.getLsbD 5

/-- `ie(i)` of a base timer (rule R48). -/
def Timer.ie (T : Timer) : Bool := T.ctla.getLsbD 7

/-- `fb7(c)` of an audio timer (rules R37, R48). -/
def Timer.fb7 (T : Timer) : Bool := T.ctla.getLsbD 7

/-- `done(i)` (rule R49). -/
def Timer.done (T : Timer) : Bool := T.ctlb.getLsbD 3

/-- `bin(i)` (rule R49). -/
def Timer.bin (T : Timer) : Bool := T.ctlb.getLsbD 1

/-- `bout(i)` (rule R49). -/
def Timer.bout (T : Timer) : Bool := T.ctlb.getLsbD 0

/-- The ControlB byte after a zero event: DONE and BOUT set (40_countdown.md rule R150). -/
def setDoneBout (ctlb : Byte) : Byte := ctlb ||| 0x09

/-- The ControlB byte after the reset-done action: DONE cleared (rule R142). -/
def clearDone (ctlb : Byte) : Byte := ctlb &&& 0xF7

/-- The ControlB byte after a clock tick: borrow-in cleared (rule R144). -/
def clearBin (ctlb : Byte) : Byte := ctlb &&& 0xFD

end Sys2Proof.Machine
end

