-- ==== Sys2Proof/Machine/Operands.lean ====
section
/-! DEFINITION. Operand forms: which timer and which channel an operand names (43_register_access.md rule R219), the kind of a timer
(10_state.md rule R52) and the fixed link topology (00_scope.md rule R10). -/

namespace Sys2Proof.Machine

/-- The timer of a base operand `iii`: timer `iii` (rule R103). -/
def baseTimer (i : BitVec 3) : Fin 12 := ⟨i.toNat, Nat.lt_trans i.isLt (by decide)⟩

/-- The channel of an audio operand `cc` (rule R104). -/
def channel (c : BitVec 2) : Fin 4 := ⟨c.toNat, c.isLt⟩

/-- The timer of channel `c`: timer `8 + c` (rule R30). -/
def channelTimer (c : Fin 4) : Fin 12 := ⟨8 + c.val, Nat.add_lt_add_left c.isLt 8⟩

/-- The timer of an audio operand `cc`: timer `8 + cc` (rule R104). -/
def audioTimer (c : BitVec 2) : Fin 12 := channelTimer (channel c)

/-- The kind of a timer, with its number within the kind (rules R12, R52). -/
inductive Kind where
  | base (i : Fin 8)
  | audio (c : Fin 4)
deriving DecidableEq, Repr

/-- Rule R52: ids 0 to 7 are base timers, ids 8 to 11 audio timers. -/
def kind (i : Fin 12) : Kind :=
  if h : i.val < 8 then .base ⟨i.val, h⟩ else .audio ⟨i.val - 8, by omega⟩

/-- LINK of rule R10: the successor a timer pulses on its zero event. -/
def link (i : Fin 12) : Option (Fin 12) :=
  match i.val with
  | 0 => some 1
  | 1 => some 2
  | 2 => some 3
  | 3 => some 4
  | 4 => none
  | 5 => some 6
  | 6 => none
  | 7 => some 8
  | 8 => some 9
  | 9 => some 10
  | 10 => some 11
  | _ => some 0

/-- The order in which `tick_all` considers the timers: strictly ascending (42_orchestrator.md rule R190). -/
def timerIds : List (Fin 12) := [0, 1, 2, 3, 4, 5, 6, 7, 8, 9, 10, 11]

end Sys2Proof.Machine
end

