-- ==== Sys2Proof/Machine/Ops.lean ====
section
/-! DEFINITION. The named operations over the state: reading and writing a timer record, an audio-settings block, a sticky flag and
the current tick (00_scope.md rule R16), ending an operation with its result or with a fault, and the reschedule that
40_countdown.md rules R142, R143 and R144 share. The block takes no traps (60_exceptions.md rule R271): the one exceptional
ending is the fault of rule R265, which ends the run and keeps none of the operation's writes. -/

namespace Sys2Proof.Machine

/-! ## The block's fields -/

/-- `T[i]` (rule R16). -/
def Block.timer (b : Block) (i : Fin 12) : Timer := b.timers[i]

/-- `A[c]` (rule R16). -/
def Block.settings (b : Block) (c : Fin 4) : AudioSettings := b.audio[c]

/-- `trig[i]` (rule R16). -/
def Block.trigFlag (b : Block) (i : Fin 8) : Bool := b.trig[i]

/-- `T[i] <- T` (rule R16). -/
def Block.setTimer (b : Block) (i : Fin 12) (T : Timer) : Block := { b with timers := b.timers.set i T }

/-- `A[c] <- A` (rule R16). -/
def Block.setSettings (b : Block) (c : Fin 4) (A : AudioSettings) : Block := { b with audio := b.audio.set c A }

/-- `trig[i] <- v` (rule R16). -/
def Block.setTrig (b : Block) (i : Fin 8) (v : Bool) : Block := { b with trig := b.trig.set i v }

/-- `now <- t` (rule R16). -/
def Block.setNow (b : Block) (t : Tick) : Block := { b with now := t }

/-! ## How an operation ends -/

/-- An operation completes: the block's new state, and its result to the host (rule R16 `return`). -/
def State.finish (s : State) (b : Block) (r : Result) : Host.Outcome State Fault Refusal :=
  .next { s with block := b, result := r }

/-- An operation raises a fault: the run ends and none of the operation's writes takes effect (rules R16, R265). -/
def raiseFault (f : Fault) : Host.Outcome State Fault Refusal := .fault f

/-- An operation that yields a new block or a fault, and has no result. -/
def State.finishPoke (s : State) (r : Except Fault Block) : Host.Outcome State Fault Refusal :=
  match r with
  | .ok b => s.finish b .none
  | .error f => raiseFault f

/-- The fault of a rejected call (rules R112, R260, R264). -/
def Fault.ofReject : Reject → Fault
  | .reservedOp w => .reservedOp w
  | .badTimerId w => .badTimerId w
  | .badAddress a => .badAddress a

/-! ## Rescheduling -/

/-- The tick at which a timer with this ControlA byte is next clocked, counted from `origin` in exact integers; past the top
of the tick, TICK_OVERFLOW with the timer id and the origin (rules R142, R143, R144, R262). -/
def reschedule (cfg : Config) (i : Fin 12) (ctla : Byte) (origin : Tick) : Except Fault Tick :=
  if origin.toNat + clockTicks cfg ctla < 2 ^ 64 then .ok (BitVec.ofNat 64 (origin.toNat + clockTicks cfg ctla))
  else .error (.tickOverflow i origin)

end Sys2Proof.Machine
end

