-- ==== Sys2Proof/Machine/Audio.lean ====
section
/-! DEFINITION. LFSR audio-tone synthesis (41_audio.md): the tap mask, the fast-path flag, the LFSR step and the output update that
the zero event of an audio timer runs. -/

namespace Sys2Proof.Machine

/-- The 12-bit LFSR `{ControlB[7:4], ShiftRegister}` (10_state.md rule R50). -/
def lfsrOf (ctlb shiftLo : Byte) : U12 := ctlb.extractLsb' 4 4 ++ shiftLo

/-- The tap mask (rule R170) of a Feedback byte and the ControlA bit 7. -/
def tapsOf (cfg : Config) (feedback : Byte) (fb7 : Bool) : U12 :=
  (feedback.extractLsb' 0 6).setWidth 12
    ||| ((feedback.extractLsb' 6 2).setWidth 12 <<< 10)
    ||| ((BitVec.ofBool fb7).setWidth 12 <<< cfg.ctla7TapPos.val)

/-- `LFSR(c)` (rule R50). -/
def Block.lfsr (b : Block) (c : Fin 4) : U12 := lfsrOf (b.timer (channelTimer c)).ctlb (b.settings c).shiftLo

/-- `taps(c)` (rule R170). -/
def Block.taps (cfg : Config) (b : Block) (c : Fin 4) : U12 :=
  tapsOf cfg (b.settings c).feedback (b.timer (channelTimer c)).fb7

/-- The fast-path flag `disabled(c)` (rule R171). -/
def Block.disabled (b : Block) (c : Fin 4) : Bool :=
  (b.timer (channelTimer c)).backup == 0x00 && (b.settings c).feedback == 0x01

/-- The inserted bit `nb` (rule R172): the inverted parity of the tapped LFSR bits. -/
def insertedBit (taps lfsr : U12) : Bool := (popcount (taps &&& lfsr) % 2) ^^^ 1 == 1

/-- The shift (rule R173): left by one, `nb` at bit 0, bit 11 discarded. -/
def shiftLfsr (lfsr : U12) (nb : Bool) : U12 := (lfsr <<< 1) ||| (BitVec.ofBool nb).setWidth 12

/-- ControlB with a new LFSR top nibble; bits 3..0 keep their value (rule R174). -/
def withLfsrNibble (ctlb : Byte) (lfsr : U12) : Byte := lfsr.extractLsb' 8 4 ++ ctlb.extractLsb' 0 4

/-- Whether the output goes up for an inserted bit (rule R176, OUTPUT_SENSE of D8). -/
def outputUp (cfg : Config) (nb : Bool) : Bool :=
  match cfg.outputSense with
  | .literal => !nb
  | .inverted => nb

/-- The new output sample (rule R176): accumulated in integrate mode, plus or minus the volume otherwise, saturating. -/
def outputAfter (cfg : Config) (integ : Bool) (volume output : Byte) (nb : Bool) : Byte :=
  if integ then
    if outputUp cfg nb then sadd8 output volume else ssub8 output volume
  else
    if outputUp cfg nb then volume else sneg8 volume

/-- Channel `c`'s inserted bit `nb` (rule R172). -/
def Block.nextBit (cfg : Config) (b : Block) (c : Fin 4) : Bool := insertedBit (Block.taps cfg b c) (b.lfsr c)

/-- Channel `c`'s LFSR after a step (rule R173). -/
def Block.nextLfsr (cfg : Config) (b : Block) (c : Fin 4) : U12 := shiftLfsr (b.lfsr c) (Block.nextBit cfg b c)

/-- The record of channel `c`'s timer after an LFSR step (rule R174): the top nibble into ControlB. -/
def Block.steppedTimer (cfg : Config) (b : Block) (c : Fin 4) : Timer :=
  { b.timer (channelTimer c) with
    ctlb := withLfsrNibble (b.timer (channelTimer c)).ctlb (Block.nextLfsr cfg b c) }

/-- The settings of channel `c` after an LFSR step (rules R174, R176): the low byte and the new sample. -/
def Block.steppedSettings (cfg : Config) (b : Block) (c : Fin 4) : AudioSettings :=
  { b.settings c with
    shiftLo := (Block.nextLfsr cfg b c).extractLsb' 0 8
    output := outputAfter cfg (b.timer (channelTimer c)).integ (b.settings c).volume (b.settings c).output
      (Block.nextBit cfg b c) }

/-- `lfsr_step(c)` (rule R175). -/
def lfsrStep (cfg : Config) (c : Fin 4) (b : Block) : Block :=
  (b.setTimer (channelTimer c) (Block.steppedTimer cfg b c)).setSettings c (Block.steppedSettings cfg b c)

end Sys2Proof.Machine
end

