-- ==== Sys2Proof/Machine/Countdown.lean ====
section
/-! DEFINITION. The countdown-timer skeleton (40_countdown.md): the two register-write operations, the clock tick, the cascade pulse,
and the count-down step both end in. -/

namespace Sys2Proof.Machine

/-! ## Register writes -/

/-- Whether a ControlA byte arms its timer (rule R142): CEN set and not linked. -/
def arms (ctla : Byte) : Bool := cenOf ctla && !linkedOf ctla

/-- The record after a ControlA poke (rule R142): the byte stored, the reset-done action, the new schedule. -/
def Timer.writeControlA (T : Timer) (v : Byte) (next : TickInf) : Timer :=
  { T with ctla := v, ctlb := if v.getLsbD 6 then clearDone T.ctlb else T.ctlb, next := next }

/-- `set_control_a(i, v)` (rule R142). -/
def setControlA (cfg : Config) (i : Fin 12) (v : Byte) (b : Block) : Except Fault Block :=
  if arms v then
    match reschedule cfg i v b.now with
    | .error f => .error f
    | .ok n => .ok (b.setTimer i ((b.timer i).writeControlA v (some n)))
  else .ok (b.setTimer i ((b.timer i).writeControlA v never))

/-- `set_count(i, v)` (rule R143). -/
def setCount (cfg : Config) (i : Fin 12) (v : Byte) (b : Block) : Except Fault Block :=
  if arms (b.timer i).ctla && v != 0 then
    match reschedule cfg i (b.timer i).ctla b.now with
    | .error f => .error f
    | .ok n => .ok (b.setTimer i { b.timer i with count := v, next := some n })
  else .ok (b.setTimer i { b.timer i with count := v })

/-! ## Count-down -/

/-- What a count-down step, a clock tick or a cascade pulse reports: the new block, whether the timer reached its zero event,
and its interrupt bits (rule R150). -/
structure StepOut where
  block : Block
  zero  : Bool
  bits  : Byte
deriving DecidableEq, Repr

/-- Nothing happened: `(false, 0)`. -/
def StepOut.quiet (b : Block) : StepOut := ⟨b, false, 0⟩

/-- The record after its zero event (rule R150): reloaded, or idled with its count left at 0; DONE and BOUT set. -/
def Timer.zeroEvent (T : Timer) : Timer :=
  { T with
    count := if T.reload then T.backup else T.count
    next := if T.reload then T.next else never
    ctlb := setDoneBout T.ctlb }

/-- The record after a plain decrement (rule R150): the count is at least 1, so it does not wrap. -/
def Timer.decremented (T : Timer) : Timer := { T with count := T.count - 1 }

/-- The interrupt bit of base timer `i`: `1 << i` where IE is set (rules R150, R263). -/
def interruptBit (i : Fin 8) (ie : Bool) : Byte := if ie then 1 <<< i.val else 0

/-- The zero event of timer `i` (rule R150): the record's own part, then the sticky flag and the interrupt bit of a base
timer, or the LFSR step of an audio timer. -/
def zeroStep (cfg : Config) (i : Fin 12) (b : Block) : StepOut :=
  match kind i with
  | .base k => ⟨(b.setTimer i (b.timer i).zeroEvent).setTrig k true, true, interruptBit k (b.timer i).ie⟩
  | .audio c => ⟨lfsrStep cfg c (b.setTimer i (b.timer i).zeroEvent), true, 0⟩

/-- `count_down(i)` (rule R150). -/
def countDown (cfg : Config) (i : Fin 12) (b : Block) : StepOut :=
  if (b.timer i).count = 0 then zeroStep cfg i b
  else StepOut.quiet (b.setTimer i (b.timer i).decremented)

/-! ## Clock tick and cascade pulse -/

/-- Whether timer `i` is an audio timer whose fast-path flag is set (rule R171). -/
def Block.fastPath (b : Block) (i : Fin 12) : Bool :=
  match kind i with
  | .base _ => false
  | .audio c => b.disabled c

/-- The record at a clock tick, before its count-down step (rule R144): borrow-in cleared, `next` as given. -/
def Timer.ticked (T : Timer) (next : TickInf) : Timer := { T with ctlb := clearBin T.ctlb, next := next }

/-- `tick(i, t)` (rule R144). -/
def clockTick (cfg : Config) (i : Fin 12) (t : Tick) (b : Block) : Except Fault StepOut :=
  if b.fastPath i && cfg.fastpathTick == .frozen then .ok (StepOut.quiet b)
  else if !(b.timer i).cen || (b.timer i).linked || b.fastPath i then
    .ok (StepOut.quiet (b.setTimer i ((b.timer i).ticked never)))
  else
    match reschedule cfg i (b.timer i).ctla t with
    | .error f => .error f
    | .ok n => .ok (countDown cfg i (b.setTimer i ((b.timer i).ticked (some n))))

/-- The gate of a cascade pulse (rule R145, LINKED_GATE of D19). -/
def gateOpen (cfg : Config) (T : Timer) : Bool :=
  match cfg.linkedGate with
  | .none => true
  | .countEnable => T.cen
  | .enableAndNotDone => T.cen && (T.reload || !T.done)

/-- Whether a pulse to timer `j` counts (rule R145): linked, not silenced by the fast path, and through the gate. -/
def acceptsPulse (cfg : Config) (j : Fin 12) (b : Block) : Bool :=
  (b.timer j).linked && !b.fastPath j && gateOpen cfg (b.timer j)

/-- `tick_linked(j)` (rule R145). -/
def tickLinked (cfg : Config) (j : Fin 12) (b : Block) : StepOut :=
  if acceptsPulse cfg j b then countDown cfg j b else StepOut.quiet b

end Sys2Proof.Machine
end

