-- ==== Sys2Proof/Machine/TickAll.lean ====
section
/-! DEFINITION. The tick advance (42_orchestrator.md rule R190): the sweep over the timers in ascending id, each zero event followed
along its cascade chain, the interrupt bits ORed into one mask and timer 4 reported apart. -/

namespace Sys2Proof.Machine

/-- The sweep in progress: the block, the mask and the timer-4 output so far. -/
structure Sweep where
  block  : Block
  mask   : Byte
  timer4 : Bool
deriving DecidableEq, Repr

/-- Taking in what timer `i` reported: its interrupt bits, and its zero event where it is timer 4 (rules R190, R267). -/
def Sweep.absorb (w : Sweep) (i : Fin 12) (o : StepOut) : Sweep :=
  ⟨o.block, w.mask ||| o.bits, w.timer4 || (i == 4 && o.zero)⟩

/-- The cascade after a zero event of timer `j` (rule R190): pulse the successor, and go on while it too reaches zero. The
topology is acyclic (rule R291), so the chain ends before `fuel` = 12 pulses (log entry 14). -/
def cascade (cfg : Config) : Nat → Fin 12 → Sweep → Sweep
  | 0, _, w => w
  | fuel + 1, j, w =>
    match link j with
    | none => w
    | some k =>
      if (tickLinked cfg k w.block).zero then cascade cfg fuel k (w.absorb k (tickLinked cfg k w.block))
      else w.absorb k (tickLinked cfg k w.block)

/-- Whether a timer is due at `t` (rule R190): its `next` is a tick, and not past `t`. -/
def due (next : TickInf) (t : Tick) : Bool :=
  match next with
  | none => false
  | some n => decide (n.toNat ≤ t.toNat)

/-- One turn of the loop of rule R190: timer `i` is skipped unless it is due; else clocked, and its zero event cascaded. -/
def sweepOne (cfg : Config) (t : Tick) (i : Fin 12) (w : Sweep) : Except Fault Sweep :=
  if due (w.block.timer i).next t then
    match clockTick cfg i t w.block with
    | .error f => .error f
    | .ok o => .ok (if o.zero then cascade cfg 12 i (w.absorb i o) else w.absorb i o)
  else .ok w

/-- The loop of rule R190 over a list of timer ids. -/
def sweep (cfg : Config) (t : Tick) : List (Fin 12) → Sweep → Except Fault Sweep
  | [], w => .ok w
  | i :: is, w =>
    match sweepOne cfg t i w with
    | .error f => .error f
    | .ok w' => sweep cfg t is w'

/-- `tick_all(t)` (rule R190). -/
def tickAll (cfg : Config) (t : Tick) (b : Block) : Except Fault Sweep :=
  if t.toNat < b.now.toNat then .error (.tickDecreased t b.now)
  else sweep cfg t timerIds ⟨b.setNow t, 0x00, false⟩

end Sys2Proof.Machine
end

