-- ==== Sys2Proof/Machine/Orchestrator.lean ====
section
/-! DEFINITION. The orchestrator's operations: TICKALL, the queries and RESET (42_orchestrator.md rules R190 to R197). -/

namespace Sys2Proof.Machine

/-- TICKALL (rule R190). -/
def execTickAll (t : Tick) (s : State) : Host.Outcome State Fault Refusal :=
  match tickAll s.cfg t s.block with
  | .ok w => s.finish w.block (.tickAll w.mask w.timer4)
  | .error f => raiseFault f

/-- Read and clear a sticky flag (rules R193, R194). -/
def State.readAndClear (s : State) (i : Fin 8) : Host.Outcome State Fault Refusal :=
  s.finish (s.block.setTrig i false) (.flag (s.block.trigFlag i))

/-- HSYNC (rule R193): the flag of timer 0. -/
def execHsync (s : State) : Host.Outcome State Fault Refusal := s.readAndClear 0

/-- VSYNC (rule R194): the flag of timer 2. -/
def execVsync (s : State) : Host.Outcome State Fault Refusal := s.readAndClear 2

/-- TRIG (rule R195): BAD_TIMER_ID above 11, with the word; else the timer's next-trigger tick. -/
def execTrig (id : BitVec 4) (s : State) : Host.Outcome State Fault Refusal :=
  if h : id.toNat < 12 then s.finish s.block (.tick (s.block.timer ⟨id.toNat, h⟩).next)
  else raiseFault (.badTimerId (encodeWord (.trig id)))

/-- The sample of AUDIOOUT (rule R196): that of channel `n - 8` for `n` in 8..11, else 0. -/
def audioSample (b : Block) (n : BitVec 6) : Sample :=
  if h : 8 ≤ n.toNat ∧ n.toNat ≤ 11 then sext16 (b.settings ⟨n.toNat - 8, by omega⟩).output else 0x0000

/-- AUDIOOUT (rule R196). -/
def execAudioOut (n : BitVec 6) (s : State) : Host.Outcome State Fault Refusal :=
  s.finish s.block (.sample (audioSample s.block n))

/-- RESET (rule R197): every field of rule R58 takes its reset value. -/
def execReset (s : State) : Host.Outcome State Fault Refusal := s.finish Block.reset .none

end Sys2Proof.Machine
end

