-- ==== Sys2Proof/Machine/PeekBase.lean ====
section
/-! DEFINITION. PEEK in the base-timer window (43_register_access.md rules R220 to R223). No peek changes the block (rule R87). -/

namespace Sys2Proof.Machine

/-- What a ControlA read returns (rule R221, CTLA_BIT6_READ of D13). -/
def readControlA (cfg : Config) (ctla : Byte) : Byte :=
  match cfg.ctlaBit6Read with
  | .asWritten => ctla
  | .zero => ctla &&& 0xBF

/-- A peek that returns `v`: the block is unchanged (rule R87). -/
def State.peeked (s : State) (v : Byte) : Host.Outcome State Fault Refusal := s.finish s.block (.byte v)

/-- PEEK.BKUP (rule R220). -/
def execPeekBkup (i : BitVec 3) (s : State) : Host.Outcome State Fault Refusal :=
  s.peeked (s.block.timer (baseTimer i)).backup

/-- PEEK.CTLA (rule R221). -/
def execPeekCtla (i : BitVec 3) (s : State) : Host.Outcome State Fault Refusal :=
  s.peeked (readControlA s.cfg (s.block.timer (baseTimer i)).ctla)

/-- PEEK.CNT (rule R222). -/
def execPeekCnt (i : BitVec 3) (s : State) : Host.Outcome State Fault Refusal :=
  s.peeked (s.block.timer (baseTimer i)).count

/-- PEEK.CTLB (rule R223). -/
def execPeekCtlb (i : BitVec 3) (s : State) : Host.Outcome State Fault Refusal :=
  s.peeked (s.block.timer (baseTimer i)).ctlb

end Sys2Proof.Machine
end

