-- ==== Sys2Proof/Machine/PeekAudio.lean ====
section
/-! DEFINITION. PEEK in the audio-timer window (43_register_access.md rules R224 to R231). No peek changes the block (rule R87). -/

namespace Sys2Proof.Machine

/-- PEEK.AVOL (rule R224). -/
def execPeekAvol (c : BitVec 2) (s : State) : Host.Outcome State Fault Refusal :=
  s.peeked (s.block.settings (channel c)).volume

/-- PEEK.AFB (rule R225): the byte as written. -/
def execPeekAfb (c : BitVec 2) (s : State) : Host.Outcome State Fault Refusal :=
  s.peeked (s.block.settings (channel c)).feedback

/-- PEEK.AOUT (rule R226). -/
def execPeekAout (c : BitVec 2) (s : State) : Host.Outcome State Fault Refusal :=
  s.peeked (s.block.settings (channel c)).output

/-- PEEK.ASHIFT (rule R227): `LFSR(c)[7:0]`. -/
def execPeekAshift (c : BitVec 2) (s : State) : Host.Outcome State Fault Refusal :=
  s.peeked (s.block.settings (channel c)).shiftLo

/-- PEEK.ABKUP (rule R228). -/
def execPeekAbkup (c : BitVec 2) (s : State) : Host.Outcome State Fault Refusal :=
  s.peeked (s.block.timer (audioTimer c)).backup

/-- PEEK.ACTLA (rule R229): as PEEK.CTLA, bit 7 the tap bit FB7. -/
def execPeekActla (c : BitVec 2) (s : State) : Host.Outcome State Fault Refusal :=
  s.peeked (readControlA s.cfg (s.block.timer (audioTimer c)).ctla)

/-- PEEK.ACNT (rule R230). -/
def execPeekAcnt (c : BitVec 2) (s : State) : Host.Outcome State Fault Refusal :=
  s.peeked (s.block.timer (audioTimer c)).count

/-- PEEK.ACTLB (rule R231): `LFSR(c)[11:8]` above the status bits. -/
def execPeekActlb (c : BitVec 2) (s : State) : Host.Outcome State Fault Refusal :=
  s.peeked (s.block.timer (audioTimer c)).ctlb

end Sys2Proof.Machine
end

