-- ==== Sys2Proof/Machine/PokeBase.lean ====
section
/-! DEFINITION. POKE in the base-timer window (43_register_access.md rules R232 to R235). -/

namespace Sys2Proof.Machine

/-- `T[i].backup <- v`. -/
def storeBackup (i : Fin 12) (v : Byte) (b : Block) : Block := b.setTimer i { b.timer i with backup := v }

/-- `T[i].ctlb <- v`, all 8 bits (D12). -/
def storeControlB (i : Fin 12) (v : Byte) (b : Block) : Block := b.setTimer i { b.timer i with ctlb := v }

/-- POKE.BKUP (rule R232). -/
def execPokeBkup (i : BitVec 3) (v : Byte) (s : State) : Host.Outcome State Fault Refusal :=
  s.finish (storeBackup (baseTimer i) v s.block) .none

/-- POKE.CTLA (rule R233): `set_control_a`. -/
def execPokeCtla (i : BitVec 3) (v : Byte) (s : State) : Host.Outcome State Fault Refusal :=
  s.finishPoke (setControlA s.cfg (baseTimer i) v s.block)

/-- POKE.CNT (rule R234): `set_count`. -/
def execPokeCnt (i : BitVec 3) (v : Byte) (s : State) : Host.Outcome State Fault Refusal :=
  s.finishPoke (setCount s.cfg (baseTimer i) v s.block)

/-- POKE.CTLB (rule R235). -/
def execPokeCtlb (i : BitVec 3) (v : Byte) (s : State) : Host.Outcome State Fault Refusal :=
  s.finish (storeControlB (baseTimer i) v s.block) .none

end Sys2Proof.Machine
end

