-- ==== Sys2Proof/Machine/PokeAudio.lean ====
section
/-! DEFINITION. POKE in the audio-timer window (43_register_access.md rules R236 to R243). The fast-path flag is derived from Backup
and Feedback (41_audio.md rule R171), so a poke of either recomputes it by construction. -/

namespace Sys2Proof.Machine

/-- POKE.AVOL (rule R236). -/
def execPokeAvol (c : BitVec 2) (v : Byte) (s : State) : Host.Outcome State Fault Refusal :=
  s.finish (s.block.setSettings (channel c) { s.block.settings (channel c) with volume := v }) .none

/-- POKE.AFB (rule R237). -/
def execPokeAfb (c : BitVec 2) (v : Byte) (s : State) : Host.Outcome State Fault Refusal :=
  s.finish (s.block.setSettings (channel c) { s.block.settings (channel c) with feedback := v }) .none

/-- POKE.AOUT (rule R238). -/
def execPokeAout (c : BitVec 2) (v : Byte) (s : State) : Host.Outcome State Fault Refusal :=
  s.finish (s.block.setSettings (channel c) { s.block.settings (channel c) with output := v }) .none

/-- POKE.ASHIFT (rule R239). -/
def execPokeAshift (c : BitVec 2) (v : Byte) (s : State) : Host.Outcome State Fault Refusal :=
  s.finish (s.block.setSettings (channel c) { s.block.settings (channel c) with shiftLo := v }) .none

/-- POKE.ABKUP (rule R240). -/
def execPokeAbkup (c : BitVec 2) (v : Byte) (s : State) : Host.Outcome State Fault Refusal :=
  s.finish (storeBackup (audioTimer c) v s.block) .none

/-- POKE.ACTLA (rule R241): `set_control_a(8 + c, v)`. -/
def execPokeActla (c : BitVec 2) (v : Byte) (s : State) : Host.Outcome State Fault Refusal :=
  s.finishPoke (setControlA s.cfg (audioTimer c) v s.block)

/-- POKE.ACNT (rule R242): `set_count(8 + c, v)`. -/
def execPokeAcnt (c : BitVec 2) (v : Byte) (s : State) : Host.Outcome State Fault Refusal :=
  s.finishPoke (setCount s.cfg (audioTimer c) v s.block)

/-- POKE.ACTLB (rule R243). -/
def execPokeActlb (c : BitVec 2) (v : Byte) (s : State) : Host.Outcome State Fault Refusal :=
  s.finish (storeControlB (audioTimer c) v s.block) .none

end Sys2Proof.Machine
end

