-- ==== Sys2Proof/Machine/Dispatch.lean ====
section
/-! DEFINITION. The meaning of every instruction: one arm per constructor of Instr. -/

namespace Sys2Proof.Machine

def exec (i : Instr) (s : State) : Host.Outcome State Fault Refusal :=
  match i with
  | .peekBkup x => Sys2Proof.Machine.execPeekBkup x s
  | .peekCtla x => Sys2Proof.Machine.execPeekCtla x s
  | .peekCnt x => Sys2Proof.Machine.execPeekCnt x s
  | .peekCtlb x => Sys2Proof.Machine.execPeekCtlb x s
  | .peekAvol c => Sys2Proof.Machine.execPeekAvol c s
  | .peekAfb c => Sys2Proof.Machine.execPeekAfb c s
  | .peekAout c => Sys2Proof.Machine.execPeekAout c s
  | .peekAshift c => Sys2Proof.Machine.execPeekAshift c s
  | .peekAbkup c => Sys2Proof.Machine.execPeekAbkup c s
  | .peekActla c => Sys2Proof.Machine.execPeekActla c s
  | .peekAcnt c => Sys2Proof.Machine.execPeekAcnt c s
  | .peekActlb c => Sys2Proof.Machine.execPeekActlb c s
  | .pokeBkup x v => Sys2Proof.Machine.execPokeBkup x v s
  | .pokeCtla x v => Sys2Proof.Machine.execPokeCtla x v s
  | .pokeCnt x v => Sys2Proof.Machine.execPokeCnt x v s
  | .pokeCtlb x v => Sys2Proof.Machine.execPokeCtlb x v s
  | .pokeAvol c v => Sys2Proof.Machine.execPokeAvol c v s
  | .pokeAfb c v => Sys2Proof.Machine.execPokeAfb c v s
  | .pokeAout c v => Sys2Proof.Machine.execPokeAout c v s
  | .pokeAshift c v => Sys2Proof.Machine.execPokeAshift c v s
  | .pokeAbkup c v => Sys2Proof.Machine.execPokeAbkup c v s
  | .pokeActla c v => Sys2Proof.Machine.execPokeActla c v s
  | .pokeAcnt c v => Sys2Proof.Machine.execPokeAcnt c v s
  | .pokeActlb c v => Sys2Proof.Machine.execPokeActlb c v s
  | .tickAll t => Sys2Proof.Machine.execTickAll t s
  | .hsync => Sys2Proof.Machine.execHsync s
  | .vsync => Sys2Proof.Machine.execVsync s
  | .trig id => Sys2Proof.Machine.execTrig id s
  | .audioOut n => Sys2Proof.Machine.execAudioOut n s
  | .reset => Sys2Proof.Machine.execReset s

end Sys2Proof.Machine
end

