-- ==== Sys2Proof/Machine/Fetch.lean ====
section
/-! DEFINITION. Where the next operation comes from. The block has no program counter and fetches nothing (10_state.md rule R32): it
performs what the host calls, one call at a time, in order (20_memory.md rule R92). The calls not yet performed are
`State.pending`. -/

namespace Sys2Proof.Machine

/-- The state in which a call is being performed: the call is taken off the list, everything else as it was. -/
def State.afterFetch (s : State) (rest : List Request) : State := { s with pending := rest }

/-- The host puts a call before those it has still to make. -/
def State.call (s : State) (r : Request) : State := { s with pending := r :: s.pending }

/-- The instruction a call names under the machine's configuration, or the fault of its rejection (rules R90, R112, R270). -/
def State.decodeCall (s : State) (r : Request) : Except Fault Instr :=
  match r.toInstr s.cfg with
  | .ok i => .ok i
  | .error e => .error (Fault.ofReject e)

end Sys2Proof.Machine
end

