-- ==== Sys2Proof/Machine/Step.lean ====
section
/-! DEFINITION. One step of the machine: the host's next call, decoded and performed as one atomic transition (00_scope.md rule R8,
20_memory.md rule R85). With no call pending the block performs nothing and its state stands (60_exceptions.md rule R279). -/

namespace Sys2Proof.Machine

/-- One step: take the next call, decode it, execute the instruction. -/
def step (s : State) : Host.Outcome State Fault Refusal :=
  match s.pending with
  | [] => .next s
  | r :: rest =>
    match s.decodeCall r with
    | .error f => raiseFault f
    | .ok i => exec i (s.afterFetch rest)

/-- `s` with the instruction of an opcode-table row as the host's next call (log entry 1). -/
def State.withFetchWord (s : State) (nbits w : Nat) : State :=
  s.call (.transaction (tableTransaction nbits w))

end Sys2Proof.Machine
end

