-- ==== Sys2Proof/Machine/Assembler.lean ====
section
/-! DEFINITION. The spec's own program notation (30_encoding.md rules R116, R117): a line of text, its operands with their range
checks, the pseudo-instructions and their expansions, and a program as the host calls it makes. Notation only
(92_eei_decisions.md D24): no meaning depends on this file. -/

namespace Sys2Proof.Machine

/-- Why the assembler refuses a line (rule R116). -/
inductive AsmError where
  | unknownMnemonic (m : String)
  | operandCount
  | idOutOfRange (n : Int)
  | valueOutOfRange (n : Int)
  | tickOutOfRange (n : Int)
  | badNumber
  | noWord (e : Reject)        -- `peek` or `poke` of an address the block does not decode (rule R109)
deriving DecidableEq, Repr

/-- A line split into its mnemonic, its operands and the names given to its results after `->` (rule R116). -/
structure AsmLine where
  mnemonic : String
  operands : List Int
  results  : List String
deriving DecidableEq, Repr

/-! ## Operand ranges (rule R116) -/

/-- A base timer id, 0..7. -/
def asmBaseId (n : Int) : Except AsmError (BitVec 3) :=
  if 0 ≤ n ∧ n ≤ 7 then .ok (BitVec.ofInt 3 n) else .error (.idOutOfRange n)

/-- The channel of an audio timer id, 8..11. -/
def asmAudioId (n : Int) : Except AsmError (BitVec 2) :=
  if 8 ≤ n ∧ n ≤ 11 then .ok (BitVec.ofInt 2 (n - 8)) else .error (.idOutOfRange n)

/-- A byte value, 0..255. -/
def asmByte (n : Int) : Except AsmError Byte :=
  if 0 ≤ n ∧ n ≤ 255 then .ok (BitVec.ofInt 8 n) else .error (.valueOutOfRange n)

/-- A value of AVOL or AOUT: -128..127 as its two's-complement byte (rule R116); 128..255 is taken too (DESIGN CHOICE, log
entry 16). -/
def asmSigned (n : Int) : Except AsmError Byte :=
  if -128 ≤ n ∧ n ≤ 255 then .ok (BitVec.ofInt 8 n) else .error (.valueOutOfRange n)

/-- A tick, 0..2^64-1. -/
def asmTick (n : Int) : Except AsmError Tick :=
  if 0 ≤ n ∧ n ≤ 2 ^ 64 - 1 then .ok (BitVec.ofInt 64 n) else .error (.tickOutOfRange n)

/-- A number of a given width, refused where it does not fit (DESIGN CHOICE, log entry 16): the 12-bit value of SEED, the
channel of AUDIOOUT, the address of `peek` and `poke`, whose ranges rule R116 does not list. -/
def asmField (w : Nat) (n : Int) : Except AsmError (BitVec w) :=
  if 0 ≤ n ∧ n < 2 ^ w then .ok (BitVec.ofInt w n) else .error (.valueOutOfRange n)

/-- A timer id of TRIG, 0..11. -/
def asmTimerId (n : Int) : Except AsmError (BitVec 4) :=
  if 0 ≤ n ∧ n ≤ 11 then .ok (BitVec.ofInt 4 n) else .error (.idOutOfRange n)

/-! ## Mnemonics -/

/-- No operands. -/
def asm0 (ops : List Int) (i : Instr) : Except AsmError Instr :=
  match ops with
  | [] => .ok i
  | _ => .error .operandCount

/-- One operand. -/
def asm1 {α : Type} (ops : List Int) (a : Int → Except AsmError α) (f : α → Instr) : Except AsmError Instr :=
  match ops with
  | [x] => (a x).map f
  | _ => .error .operandCount

/-- Two operands. -/
def asm2 {α β : Type} (ops : List Int) (a : Int → Except AsmError α) (b : Int → Except AsmError β) (f : α → β → Instr) :
    Except AsmError Instr :=
  match ops with
  | [x, y] => (a x).bind fun p => (b y).map (f p)
  | _ => .error .operandCount

/-- A line with a mnemonic of the opcode map (rules R111, R116). -/
def assembleCore (m : String) (ops : List Int) : Except AsmError Instr :=
  match m with
  | "PEEK.BKUP" => asm1 ops asmBaseId .peekBkup
  | "PEEK.CTLA" => asm1 ops asmBaseId .peekCtla
  | "PEEK.CNT" => asm1 ops asmBaseId .peekCnt
  | "PEEK.CTLB" => asm1 ops asmBaseId .peekCtlb
  | "PEEK.AVOL" => asm1 ops asmAudioId .peekAvol
  | "PEEK.AFB" => asm1 ops asmAudioId .peekAfb
  | "PEEK.AOUT" => asm1 ops asmAudioId .peekAout
  | "PEEK.ASHIFT" => asm1 ops asmAudioId .peekAshift
  | "PEEK.ABKUP" => asm1 ops asmAudioId .peekAbkup
  | "PEEK.ACTLA" => asm1 ops asmAudioId .peekActla
  | "PEEK.ACNT" => asm1 ops asmAudioId .peekAcnt
  | "PEEK.ACTLB" => asm1 ops asmAudioId .peekActlb
  | "POKE.BKUP" => asm2 ops asmBaseId asmByte .pokeBkup
  | "POKE.CTLA" => asm2 ops asmBaseId asmByte .pokeCtla
  | "POKE.CNT" => asm2 ops asmBaseId asmByte .pokeCnt
  | "POKE.CTLB" => asm2 ops asmBaseId asmByte .pokeCtlb
  | "POKE.AVOL" => asm2 ops asmAudioId asmSigned .pokeAvol
  | "POKE.AFB" => asm2 ops asmAudioId asmByte .pokeAfb
  | "POKE.AOUT" => asm2 ops asmAudioId asmSigned .pokeAout
  | "POKE.ASHIFT" => asm2 ops asmAudioId asmByte .pokeAshift
  | "POKE.ABKUP" => asm2 ops asmAudioId asmByte .pokeAbkup
  | "POKE.ACTLA" => asm2 ops asmAudioId asmByte .pokeActla
  | "POKE.ACNT" => asm2 ops asmAudioId asmByte .pokeAcnt
  | "POKE.ACTLB" => asm2 ops asmAudioId asmByte .pokeActlb
  | "TICKALL" => asm1 ops asmTick .tickAll
  | "HSYNC" => asm0 ops .hsync
  | "VSYNC" => asm0 ops .vsync
  | "TRIG" => asm1 ops asmTimerId .trig
  | "AUDIOOUT" => asm1 ops (asmField 6) .audioOut
  | "RESET" => asm0 ops .reset
  | _ => .error (.unknownMnemonic m)

/-! ## Pseudo-instructions (rule R117) -/

/-- `ARM <id>, <bkup>, <ctla>`: Backup, Count and ControlA, with the `A` mnemonics for an audio id. -/
def expandArm (id bkup ctla : Int) : Except AsmError (List Instr) :=
  (asmByte bkup).bind fun b => (asmByte ctla).bind fun a =>
    if id ≤ 7 then (asmBaseId id).map fun i => [.pokeBkup i b, .pokeCnt i b, .pokeCtla i a]
    else (asmAudioId id).map fun c => [.pokeAbkup c b, .pokeAcnt c b, .pokeActla c a]

/-- `ACKDONE <id>, <ctla>`: `POKE.CTLA <id>, (<ctla> OR 0x40)`, so a base timer's id (log entry 16). -/
def expandAckdone (id ctla : Int) : Except AsmError (List Instr) :=
  (asmBaseId id).bind fun i => (asmByte ctla).map fun a => [.pokeCtla i (a ||| 0x40)]

/-- `SEED <id>, <lfsr12>`: ShiftRegister, then ControlB with the top nibble and bits 3..0 clear. A value outside 0..4095 is
refused (DESIGN CHOICE, log entry 16: rule R117 takes bits 11..0 of the value and says nothing of a wider one). -/
def expandSeed (id lfsr12 : Int) : Except AsmError (List Instr) :=
  (asmAudioId id).bind fun c => (asmField 12 lfsr12).map fun l =>
    [.pokeAshift c (l.extractLsb' 0 8), .pokeActlb c (l.extractLsb' 8 4 ++ 0#4)]

/-- `TAPS <id>, <fb>, <ctla>`: Feedback, then ControlA (bit 7 is tap FB7). -/
def expandTaps (id fb ctla : Int) : Except AsmError (List Instr) :=
  (asmAudioId id).bind fun c => (asmByte fb).bind fun f => (asmByte ctla).map fun a => [.pokeAfb c f, .pokeActla c a]

/-- `peek <addr>` and `poke <addr>, <v>`: the mnemonic that the address selects (rule R117). -/
def expandAccess (cfg : Config) (r : Request) : Except AsmError (List Instr) :=
  match r.toInstr cfg with
  | .ok i => .ok [i]
  | .error e => .error (.noWord e)

/-- The value operand of a POKE mnemonic (rule R116): signed bytes for AVOL and AOUT, plain bytes for the others. The rows that
are no POKE take none. -/
def asmPokeValue (i : Instr) : Int → Except AsmError Byte :=
  match i with
  | .pokeAvol _ _ | .pokeAout _ _ => asmSigned
  | .pokeBkup _ _ | .pokeCtla _ _ | .pokeCnt _ _ | .pokeCtlb _ _ | .pokeAfb _ _ | .pokeAshift _ _ | .pokeAbkup _ _
  | .pokeActla _ _ | .pokeAcnt _ _ | .pokeActlb _ _ => asmByte
  | .peekBkup _ | .peekCtla _ | .peekCnt _ | .peekCtlb _ | .peekAvol _ | .peekAfb _ | .peekAout _ | .peekAshift _
  | .peekAbkup _ | .peekActla _ | .peekAcnt _ | .peekActlb _ | .tickAll _ | .hsync | .vsync | .trig _ | .audioOut _
  | .reset => asmByte

/-- `poke <addr>, <v>`: the POKE mnemonic that the address selects says which values `<v>` may take (rules R116, R117). -/
def expandPoke (cfg : Config) (addr : Addr) (v : Int) : Except AsmError (List Instr) :=
  match Request.toInstr cfg (.poke addr 0) with
  | .ok i => (asmPokeValue i v).bind fun d => expandAccess cfg (.poke addr d)
  | .error e => .error (.noWord e)

/-- One instruction as an expansion. -/
def asmSingle (r : Except AsmError Instr) : Except AsmError (List Instr) := r.map fun i => [i]

/-- A line as the instructions it stands for: a pseudo-instruction's expansion, or the one instruction of its mnemonic. -/
def assembleLine (cfg : Config) (l : AsmLine) : Except AsmError (List Instr) :=
  match l.mnemonic with
  | "ARM" => match l.operands with
    | [id, b, a] => expandArm id b a
    | _ => .error .operandCount
  | "ACKDONE" => match l.operands with
    | [id, a] => expandAckdone id a
    | _ => .error .operandCount
  | "SEED" => match l.operands with
    | [id, x] => expandSeed id x
    | _ => .error .operandCount
  | "TAPS" => match l.operands with
    | [id, f, a] => expandTaps id f a
    | _ => .error .operandCount
  | "peek" => match l.operands with
    | [x] => (asmField 16 x).bind fun a => expandAccess cfg (.peek a)
    | _ => .error .operandCount
  | "poke" => match l.operands with
    | [x, v] => (asmField 16 x).bind fun a => expandPoke cfg a v
    | _ => .error .operandCount
  | m => asmSingle (assembleCore m l.operands)

/-! ## Lines of text (rule R116; lexical details: log entry 16) -/

/-- White space within a line. -/
def isBlank (c : Char) : Bool := c == ' ' || c == '\t' || c == '\r'

/-- The text without the blanks at its ends. -/
def trimBlanks (cs : List Char) : List Char :=
  ((cs.dropWhile isBlank).reverse.dropWhile isBlank).reverse

/-- The text before a `;`, which starts a comment. -/
def dropComment (cs : List Char) : List Char := cs.takeWhile (fun c => c != ';')

/-- The text before `->`, and the text after it. -/
def splitArrow : List Char → List Char × List Char
  | [] => ([], [])
  | c :: cs =>
    match c, cs with
    | '-', '>' :: rest => ([], rest)
    | _, _ => (c :: (splitArrow cs).1, (splitArrow cs).2)

/-- The pieces of a text between commas. -/
def splitCommas : List Char → List (List Char)
  | [] => [[]]
  | c :: cs =>
    if c == ',' then [] :: splitCommas cs
    else
      match splitCommas cs with
      | [] => [[c]]
      | p :: ps => (c :: p) :: ps

/-- The value of a digit. -/
def digitValue (c : Char) : Option Nat :=
  if '0' ≤ c ∧ c ≤ '9' then some (c.toNat - 48)
  else if 'a' ≤ c ∧ c ≤ 'f' then some (c.toNat - 87)
  else if 'A' ≤ c ∧ c ≤ 'F' then some (c.toNat - 55)
  else none

/-- A number in a base, its leading digits already read into `acc`. -/
def readDigits (base : Nat) : Nat → List Char → Option Nat
  | acc, [] => some acc
  | acc, c :: cs =>
    match digitValue c with
    | some d => if d < base then readDigits base (acc * base + d) cs else none
    | none => none

/-- A number without sign: decimal, or hexadecimal after `0x`. -/
def readNat (cs : List Char) : Option Nat :=
  match cs with
  | [] => none
  | '0' :: 'x' :: c :: rest => readDigits 16 0 (c :: rest)
  | c :: rest => readDigits 10 0 (c :: rest)

/-- A number, with a minus sign where it is negative. -/
def readNumber (cs : List Char) : Except AsmError Int :=
  match cs with
  | '-' :: rest =>
    match readNat rest with
    | some n => .ok (-(n : Int))
    | none => .error .badNumber
  | _ =>
    match readNat cs with
    | some n => .ok n
    | none => .error .badNumber

/-- Every operand of a line. -/
def readOperands : List (List Char) → Except AsmError (List Int)
  | [] => .ok []
  | p :: ps => (readNumber (trimBlanks p)).bind fun n => (readOperands ps).map (n :: ·)

/-- The names after `->`: one, or several in parentheses. -/
def readResults (cs : List Char) : List String :=
  let inner := cs.filter (fun c => !(isBlank c || c == '(' || c == ')'))
  if inner.isEmpty then [] else (splitCommas inner).map String.ofList

/-- One line of a program: nothing, or an operation. -/
def readLine (s : String) : Except AsmError (Option AsmLine) :=
  let (code, res) := splitArrow (dropComment s.toList)
  let body := trimBlanks code
  if body.isEmpty then .ok none
  else
    let m := body.takeWhile (fun c => !isBlank c)
    let rest := trimBlanks (body.dropWhile (fun c => !isBlank c))
    (if rest.isEmpty then .ok [] else readOperands (splitCommas rest)).map fun ops =>
      some ⟨String.ofList m, ops, readResults res⟩

/-- A program as its instructions, line by line. -/
def assemble (cfg : Config) : List String → Except AsmError (List Instr)
  | [] => .ok []
  | l :: ls =>
    (readLine l).bind fun line =>
      match line with
      | none => assemble cfg ls
      | some a => (assembleLine cfg a).bind fun is => (assemble cfg ls).map (is ++ ·)

/-- A program as the host's calls: one transaction for each instruction, in order (rules R92, R107). -/
def callsOf (is : List Instr) : List Request := is.map fun i => .transaction (encode i)

end Sys2Proof.Machine
end

