-- ==== Sys2Proof/Safety.lean ====
section
/-! DEFINITION. The terms claims use: what an operation leaves alone, the invariants of 10_state.md rule R57, the host's side of the
contract (60_exceptions.md rules R261, R262), and TICKALL described timer by timer from the state before it, with no order of
processing (42_orchestrator.md rules R190, R192). -/

namespace Sys2Proof.Machine

/-! ## Frames -/

/-- The configuration and the calls still to be performed are unchanged. -/
def State.SameOutside (s t : State) : Prop := t.cfg = s.cfg ∧ t.pending = s.pending

/-- Everything of the block but the record of timer `i` is unchanged. -/
def Block.OnlyTimer (i : Fin 12) (b b' : Block) : Prop :=
  (∀ j, j ≠ i → b'.timer j = b.timer j) ∧ (∀ c, b'.settings c = b.settings c) ∧
    (∀ k, b'.trigFlag k = b.trigFlag k) ∧ b'.now = b.now

/-- Everything of the block but the settings of channel `c` is unchanged. -/
def Block.OnlySettings (c : Fin 4) (b b' : Block) : Prop :=
  (∀ j, b'.timer j = b.timer j) ∧ (∀ d, d ≠ c → b'.settings d = b.settings d) ∧
    (∀ k, b'.trigFlag k = b.trigFlag k) ∧ b'.now = b.now

/-- Everything of the block but the sticky flag `k` is unchanged. -/
def Block.OnlyTrig (k : Fin 8) (b b' : Block) : Prop :=
  (∀ j, b'.timer j = b.timer j) ∧ (∀ c, b'.settings c = b.settings c) ∧
    (∀ m, m ≠ k → b'.trigFlag m = b.trigFlag m) ∧ b'.now = b.now

/-- Everything of the block that count-down step, clock tick and cascade pulse of timer `i` do not belong to is unchanged:
the other timers, the other channels' settings, the other timers' sticky flags, and the current tick. -/
def Block.OnlyOwn (i : Fin 12) (b b' : Block) : Prop :=
  (∀ j, j ≠ i → b'.timer j = b.timer j) ∧ (∀ c, channelTimer c ≠ i → b'.settings c = b.settings c) ∧
    (∀ k : Fin 8, k.castLE (by decide) ≠ i → b'.trigFlag k = b.trigFlag k) ∧ b'.now = b.now

/-! ## Classes of calls and words -/

/-- The twelve PEEK rows (rule R111). -/
def isPeek (i : Instr) : Bool := (encodeWord i).extractLsb' 6 4 == 0

/-- The twelve POKE rows (rule R111). -/
def isPoke (i : Instr) : Bool := (encodeWord i).extractLsb' 6 4 == 1

/-- The words rule R112 reserves: op 1000 to 1111; TICKALL, HSYNC, VSYNC or RESET with a non-zero operand field; TRIG with
`W[5:4]` non-zero. -/
def ReservedWord (w : Word) : Prop :=
  8 ≤ (w.extractLsb' 6 4).toNat ∨
  ((w.extractLsb' 6 4 = 2 ∨ w.extractLsb' 6 4 = 3 ∨ w.extractLsb' 6 4 = 4 ∨ w.extractLsb' 6 4 = 7) ∧ w.extractLsb' 0 6 ≠ 0) ∨
  (w.extractLsb' 6 4 = 5 ∧ w.extractLsb' 4 2 ≠ 0)

/-- The words of TRIG, its must-be-zero bits clear, with a timer id of 12 to 15 (rule R112). -/
def BadTimerWord (w : Word) : Prop :=
  w.extractLsb' 6 4 = 5 ∧ w.extractLsb' 4 2 = 0 ∧ 12 ≤ (w.extractLsb' 0 4).toNat

/-- An address in the base-timer window (rule R102). -/
def InBaseWindow (cfg : Config) (a : Addr) : Prop :=
  cfg.timerBase.toNat ≤ a.toNat ∧ a.toNat ≤ cfg.timerBase.toNat + 31

/-- An address in the audio-timer window (rule R102). -/
def InAudioWindow (cfg : Config) (a : Addr) : Prop :=
  cfg.audioBase.toNat ≤ a.toNat ∧ a.toNat ≤ cfg.audioBase.toNat + 31

/-! ## Completed pokes -/

/-- A poke that completed on timer `i`: the record is `T`, everything else of the block is as before, there is no result. -/
def State.PokedTimer (s : State) (i : Fin 12) (T : Timer) (s' : State) : Prop :=
  s'.block.timer i = T ∧ Block.OnlyTimer i s.block s'.block ∧ s.SameOutside s' ∧ s'.result = .none

/-- A poke that completed on channel `c`: the settings are `A`, everything else of the block is as before, there is no
result. -/
def State.PokedSettings (s : State) (c : Fin 4) (A : AudioSettings) (s' : State) : Prop :=
  s'.block.settings c = A ∧ Block.OnlySettings c s.block s'.block ∧ s.SameOutside s' ∧ s'.result = .none

/-- A ControlA byte with CEN set and a period code other than 7 (rule R142 `arm`). -/
def Arming (v : Byte) : Prop := v.getLsbD 3 = true ∧ v.extractLsb' 0 3 ≠ 7

/-- `origin + BASE_TICK_UNIT * 2^period` as an exact integer (rules R47, R142). -/
def clockedAt (cfg : Config) (v : Byte) (origin : Tick) : Nat :=
  origin.toNat + cfg.baseTickUnit * 2 ^ (v.extractLsb' 0 3).toNat

/-- What rule R142 says of a ControlA poke of timer `i` with byte `v` whose outcome is `o`. -/
def ControlAPoked (s : State) (i : Fin 12) (v : Byte) (o : Host.Outcome State Fault Refusal) : Prop :=
  (¬ Arming v → ∃ s', o = .next s' ∧
    s.PokedTimer i { s.block.timer i with
      ctla := v
      ctlb := if v.getLsbD 6 then (s.block.timer i).ctlb &&& 0xF7 else (s.block.timer i).ctlb
      next := never } s') ∧
  (Arming v → clockedAt s.cfg v s.block.now < 2 ^ 64 → ∃ s', o = .next s' ∧
    s.PokedTimer i { s.block.timer i with
      ctla := v
      ctlb := if v.getLsbD 6 then (s.block.timer i).ctlb &&& 0xF7 else (s.block.timer i).ctlb
      next := some (BitVec.ofNat 64 (clockedAt s.cfg v s.block.now)) } s') ∧
  (Arming v → 2 ^ 64 ≤ clockedAt s.cfg v s.block.now → o = .fault (.tickOverflow i s.block.now))

/-- What rule R143 says of a Count poke of timer `i` with byte `v` whose outcome is `o`. -/
def CountPoked (s : State) (i : Fin 12) (v : Byte) (o : Host.Outcome State Fault Refusal) : Prop :=
  (¬ (Arming (s.block.timer i).ctla ∧ v ≠ 0) → ∃ s', o = .next s' ∧
    s.PokedTimer i { s.block.timer i with count := v } s') ∧
  (Arming (s.block.timer i).ctla → v ≠ 0 → clockedAt s.cfg (s.block.timer i).ctla s.block.now < 2 ^ 64 →
    ∃ s', o = .next s' ∧
      s.PokedTimer i { s.block.timer i with
        count := v
        next := some (BitVec.ofNat 64 (clockedAt s.cfg (s.block.timer i).ctla s.block.now)) } s') ∧
  (Arming (s.block.timer i).ctla → v ≠ 0 → 2 ^ 64 ≤ clockedAt s.cfg (s.block.timer i).ctla s.block.now →
    o = .fault (.tickOverflow i s.block.now))

/-- The operands of ARM arm timer `i` with no overflow: the ControlA byte arms, its reschedule fits, and so does that of the
Count poke before it, where that one reschedules (rules R142, R143). -/
def ArmFits (s : State) (i : Fin 12) (v a : Byte) : Prop :=
  Arming a ∧ clockedAt s.cfg a s.block.now < 2 ^ 64 ∧
    (Arming (s.block.timer i).ctla → v ≠ 0 → clockedAt s.cfg (s.block.timer i).ctla s.block.now < 2 ^ 64)

/-- The record of timer `i` after ARM with reload value `v` and ControlA byte `a` (rules R117, R293). -/
def armedTimer (s : State) (i : Fin 12) (v a : Byte) : Timer :=
  { backup := v
    ctla := a
    count := v
    ctlb := if a.getLsbD 6 then (s.block.timer i).ctlb &&& 0xF7 else (s.block.timer i).ctlb
    next := some (BitVec.ofNat 64 (clockedAt s.cfg a s.block.now)) }

/-! ## Invariants (rule R57) -/

/-- Rule R57 for one timer at the current tick `now`: a linked timer and a timer with CEN clear have `next` NEVER, and a
finite `next` is at most 64 × BASE_TICK_UNIT past `now`. -/
def Timer.Inv (cfg : Config) (now : Tick) (T : Timer) : Prop :=
  (T.linked = true → T.next = never) ∧ (T.cen = false → T.next = never) ∧
    ∀ n, T.next = some n → n.toNat ≤ now.toNat + 64 * cfg.baseTickUnit

/-- Rule R57 for every timer. -/
def State.Inv (s : State) : Prop := ∀ i, Timer.Inv s.cfg s.block.now (s.block.timer i)

/-! ## TICKALL, timer by timer -/

/-- Timer `i` is due at `t`. -/
def Block.dueAt (b : Block) (t : Tick) (i : Fin 12) : Bool := due (b.timer i).next t

/-- Timer `i` makes a count-down step by the clock: due, CEN set, not linked, not silenced by the fast path (rule R144). -/
def Block.clocked (b : Block) (t : Tick) (i : Fin 12) : Bool :=
  b.dueAt t i && (b.timer i).cen && !(b.timer i).linked && !b.fastPath i

/-- Timer `i` is idled by the clock: due, but with CEN clear, linked, or silenced under FASTPATH_TICK = IDLE (rule R144). -/
def Block.idled (cfg : Config) (b : Block) (t : Tick) (i : Fin 12) : Bool :=
  b.dueAt t i && !b.clocked t i && !(b.fastPath i && cfg.fastpathTick == .frozen)

/-- The predecessor of a timer: the timer whose LINK it is (rule R52: at most one). -/
def predecessor (i : Fin 12) : Option (Fin 12) := timerIds.find? (fun k => link k == some i)

/-- Whether timer `i` has a zero event in `tick_all(t)`, looking at most `fuel` timers back along its chain: its count is 0
and it is counted down, by the clock or by an accepted pulse of a predecessor that has one itself (rules R145, R150, R190). -/
def Block.zeroWithin (cfg : Config) (b : Block) (t : Tick) : Nat → Fin 12 → Bool
  | 0, _ => false
  | fuel + 1, i =>
    (b.timer i).count == 0 && (b.clocked t i || (acceptsPulse cfg i b &&
      match predecessor i with
      | none => false
      | some k => Block.zeroWithin cfg b t fuel k))

/-- Whether timer `i` has a zero event in `tick_all(t)`: no chain is longer than the twelve timers. -/
def Block.zeroIn (cfg : Config) (b : Block) (t : Tick) (i : Fin 12) : Bool := Block.zeroWithin cfg b t 12 i

/-- Whether a cascade pulse counts timer `i` down in `tick_all(t)`. -/
def Block.pulsed (cfg : Config) (b : Block) (t : Tick) (i : Fin 12) : Bool :=
  acceptsPulse cfg i b &&
    match predecessor i with
    | none => false
    | some k => Block.zeroIn cfg b t k

/-- Whether timer `i` makes a count-down step in `tick_all(t)`. -/
def Block.stepped (cfg : Config) (b : Block) (t : Tick) (i : Fin 12) : Bool := b.clocked t i || Block.pulsed cfg b t i

/-- The record of timer `i` after the clock alone (rule R144): rescheduled from `t`, idled, or as it was. -/
def Block.clockedTimer (cfg : Config) (b : Block) (t : Tick) (i : Fin 12) : Timer :=
  if b.clocked t i then
    (b.timer i).ticked (some (BitVec.ofNat 64 (t.toNat + clockTicks cfg (b.timer i).ctla)))
  else if Block.idled cfg b t i then (b.timer i).ticked never
  else b.timer i

/-- A record with the new LFSR nibble in ControlB, where it is an audio timer's (rule R174). -/
def Block.withNibble (cfg : Config) (b : Block) (i : Fin 12) (T : Timer) : Timer :=
  match kind i with
  | .base _ => T
  | .audio c => { T with ctlb := withLfsrNibble T.ctlb (Block.nextLfsr cfg b c) }

/-- The record of timer `i` after `tick_all(t)` (rules R144, R150, R174). -/
def Block.timerAfter (cfg : Config) (b : Block) (t : Tick) (i : Fin 12) : Timer :=
  if Block.stepped cfg b t i then
    if (b.timer i).count = 0 then Block.withNibble cfg b i (Block.clockedTimer cfg b t i).zeroEvent
    else (Block.clockedTimer cfg b t i).decremented
  else Block.clockedTimer cfg b t i

/-- The settings of channel `c` after `tick_all(t)` (rules R174, R176). -/
def Block.settingsAfter (cfg : Config) (b : Block) (t : Tick) (c : Fin 4) : AudioSettings :=
  if Block.zeroIn cfg b t (channelTimer c) then Block.steppedSettings cfg b c else b.settings c

/-- The base timer with number `k`. -/
def baseOf (k : Fin 8) : Fin 12 := k.castLE (by decide)

/-- The host's side of the contract for `tick_all(t)`: the tick does not go back (rule R261), and no timer the clock counts
down is rescheduled past the top of the tick (rule R262). -/
def Block.TickSafe (cfg : Config) (b : Block) (t : Tick) : Prop :=
  b.now.toNat ≤ t.toNat ∧
    ∀ i, b.clocked t i = true → t.toNat + clockTicks cfg (b.timer i).ctla < 2 ^ 64

/-- What belongs to timer `i` is the same in both blocks: its record, its channel's settings, its sticky flag. -/
def Block.SameOwn (i : Fin 12) (b b' : Block) : Prop :=
  b'.timer i = b.timer i ∧ (∀ c, channelTimer c = i → b'.settings c = b.settings c) ∧
    (∀ k, baseOf k = i → b'.trigFlag k = b.trigFlag k)

/-- What belongs to timer `i` in `b'` is what `tick_all(t)` makes of `b` with the clock's part of rule R144 and then no
count-down step of the timer, or exactly one (rule R150). -/
def Block.StepsAtMostOnce (cfg : Config) (t : Tick) (i : Fin 12) (b b' : Block) : Prop :=
  let b₀ := b.setTimer i (Block.clockedTimer cfg b t i)
  Block.SameOwn i b₀ b' ∨ Block.SameOwn i (countDown cfg i b₀).block b'

/-- The block after `k` count-down steps of timer `i` (rule R151). -/
def afterSteps (cfg : Config) (i : Fin 12) : Nat → Block → Block
  | 0, b => b
  | k + 1, b => (countDown cfg i (afterSteps cfg i k b)).block

end Sys2Proof.Machine
end

