-- ==== Sys2Proof/Certificates/Slice0/Obligations.lean ====
section
/-! DEFINITION. The statements for the provers, from the numbered rules of spec/. Every statement holds for every configuration that
meets rule R11: a state carries its own. -/

open Sys2Proof Sys2Proof.Machine

/-! ## Encoding -/

/-- 30_encoding.md sections 4 and 5: no bit of an encoding is dropped. The decoder reads back every well-formed instruction with
every operand from its transaction. -/
def Obligations.EncodedInstructionsDecodeBack : Prop :=
  ∀ i : Instr, i.wellFormed = true → decode (encode i) = .ok i

/-- 30_encoding.md sections 4 and 5: what the decoder accepts is well-formed and encodes to the same word and to the data
operand that accompanies the word. -/
def Obligations.DecodedInstructionsReencode : Prop :=
  ∀ (x : Transaction) (i : Instr), decode x = .ok i →
    i.wellFormed = true ∧ encodeWord i = x.word ∧
      (x.word.extractLsb' 6 4 = 1 → encodeData i = x.data) ∧ (x.word.extractLsb' 6 4 = 2 → encodeTick i = x.tick)

/-- 30_encoding.md section 6: exactly the reserved words are rejected as RESERVED_OP and exactly the TRIG words with id 12 to 15
as BAD_TIMER_ID, each with its word. That a TRIG word breaking both rules counts as reserved is the model's reading (log
entry 6). -/
def Obligations.ReservedWordsAreRejected : Prop :=
  ∀ x : Transaction,
    (∀ w, decode x = .error (.reservedOp w) ↔ w = x.word ∧ ReservedWord x.word) ∧
    (∀ w, decode x = .error (.badTimerId w) ↔ w = x.word ∧ BadTimerWord x.word)

/-- 30_encoding.md section 6 (an inference the spec marks as its own): every word decodes to an instruction or is rejected, and
it is an instruction exactly where it is neither reserved nor a TRIG of a timer that does not exist. -/
def Obligations.EveryWordDecodesOrIsRejected : Prop :=
  ∀ x : Transaction, (∃ i, decode x = .ok i) ↔ ¬ ReservedWord x.word ∧ ¬ BadTimerWord x.word

/-- 95_test_vectors.md V1 to V15 and the words of program P1: a few words written out from the encoding. -/
def Obligations.SampleWordsDecode : Prop :=
  decode ⟨0b0000000000, 0, 0⟩ = .ok (.peekBkup 0) ∧
  decode ⟨0b0001001101, 0x18, 0⟩ = .ok (.pokeCtla 3 0x18) ∧
  decode ⟨0b0000101111, 0, 0⟩ = .ok (.peekActlb 1) ∧
  decode ⟨0b0001100000, 0xF6, 0⟩ = .ok (.pokeAvol 0 0xF6) ∧
  decode ⟨0b0010000000, 0, 16⟩ = .ok (.tickAll 16) ∧
  decode ⟨0b0101001011, 0, 0⟩ = .ok (.trig 11) ∧
  decode ⟨0b0110111111, 0, 0⟩ = .ok (.audioOut 63) ∧
  decode ⟨0b0101001100, 0, 0⟩ = .error (.badTimerId 0b0101001100) ∧
  decode ⟨0b0010000001, 0, 0⟩ = .error (.reservedOp 0b0010000001)

/-- Rule R103: in the base-timer window the address `TIMER_BASE + 4*id + k` names register `k` of timer `id`. -/
def Obligations.BaseWindowAddressesDecode : Prop :=
  ∀ (cfg : Config) (i : BitVec 3) (v : Byte),
    let a := fun k : Nat => cfg.timerBase + BitVec.ofNat 16 (4 * i.toNat + k)
    Request.toInstr cfg (.peek (a 0)) = .ok (.peekBkup i) ∧ Request.toInstr cfg (.peek (a 1)) = .ok (.peekCtla i) ∧
    Request.toInstr cfg (.peek (a 2)) = .ok (.peekCnt i) ∧ Request.toInstr cfg (.peek (a 3)) = .ok (.peekCtlb i) ∧
    Request.toInstr cfg (.poke (a 0) v) = .ok (.pokeBkup i v) ∧ Request.toInstr cfg (.poke (a 1) v) = .ok (.pokeCtla i v) ∧
    Request.toInstr cfg (.poke (a 2) v) = .ok (.pokeCnt i v) ∧ Request.toInstr cfg (.poke (a 3) v) = .ok (.pokeCtlb i v)

/-- Rule R104: in the audio-timer window the address `AUDIO_BASE + 8*c + k` names register `k` of channel `c`. -/
def Obligations.AudioWindowAddressesDecode : Prop :=
  ∀ (cfg : Config) (c : BitVec 2) (v : Byte),
    let a := fun k : Nat => cfg.audioBase + BitVec.ofNat 16 (8 * c.toNat + k)
    Request.toInstr cfg (.peek (a 0)) = .ok (.peekAvol c) ∧ Request.toInstr cfg (.peek (a 1)) = .ok (.peekAfb c) ∧
    Request.toInstr cfg (.peek (a 2)) = .ok (.peekAout c) ∧ Request.toInstr cfg (.peek (a 3)) = .ok (.peekAshift c) ∧
    Request.toInstr cfg (.peek (a 4)) = .ok (.peekAbkup c) ∧ Request.toInstr cfg (.peek (a 5)) = .ok (.peekActla c) ∧
    Request.toInstr cfg (.peek (a 6)) = .ok (.peekAcnt c) ∧ Request.toInstr cfg (.peek (a 7)) = .ok (.peekActlb c) ∧
    Request.toInstr cfg (.poke (a 0) v) = .ok (.pokeAvol c v) ∧ Request.toInstr cfg (.poke (a 1) v) = .ok (.pokeAfb c v) ∧
    Request.toInstr cfg (.poke (a 2) v) = .ok (.pokeAout c v) ∧ Request.toInstr cfg (.poke (a 3) v) = .ok (.pokeAshift c v) ∧
    Request.toInstr cfg (.poke (a 4) v) = .ok (.pokeAbkup c v) ∧ Request.toInstr cfg (.poke (a 5) v) = .ok (.pokeActla c v) ∧
    Request.toInstr cfg (.poke (a 6) v) = .ok (.pokeAcnt c v) ∧ Request.toInstr cfg (.poke (a 7) v) = .ok (.pokeActlb c v)

/-- Rule R260: a peek or a poke faults BAD_ADDRESS with its address outside both windows; inside either, it names an
instruction. -/
def Obligations.AddressesOutsideTheWindowsFault : Prop :=
  (∀ (s : State) (a : Addr) (rest : List Request), ¬ InBaseWindow s.cfg a → ¬ InAudioWindow s.cfg a →
    s.pending = .peek a :: rest → step s = .fault (.badAddress a)) ∧
  (∀ (s : State) (a : Addr) (v : Byte) (rest : List Request), ¬ InBaseWindow s.cfg a → ¬ InAudioWindow s.cfg a →
    s.pending = .poke a v :: rest → step s = .fault (.badAddress a)) ∧
  (∀ (cfg : Config) (a : Addr) (v : Byte), InBaseWindow cfg a ∨ InAudioWindow cfg a →
    (∃ i, Request.toInstr cfg (.peek a) = .ok i) ∧ (∃ i, Request.toInstr cfg (.poke a v) = .ok i))

/-! ## Step, reset, configuration -/

/-- A step runs the decoded instruction of the host's next call, with that call taken off the list; a rejected call faults; with
no call pending the state stands. The list of calls is the model's own (log entries 1 and 4). -/
def Obligations.StepRunsTheDecodedCall : Prop :=
  ∀ s : State,
    (s.pending = [] → step s = .next s) ∧
    (∀ (r : Request) (rest : List Request) (i : Instr), s.pending = r :: rest → r.toInstr s.cfg = .ok i →
      step s = exec i { s with pending := rest }) ∧
    (∀ (r : Request) (rest : List Request) (e : Reject), s.pending = r :: rest → r.toInstr s.cfg = .error e →
      step s = .fault (Fault.ofReject e))

/-- 10_state.md section 7, the reset values: "every value below is the spec's choice" (92_eei_decisions.md D4, log entry 9). -/
def Obligations.PowerOnValues : Prop :=
  (∀ i, State.reset.block.timer i = ⟨0x00, 0x00, 0x00, 0x00, never⟩) ∧
  (∀ c, State.reset.block.settings c = ⟨0, 0x00, 0x00, 0⟩) ∧
  (∀ k, State.reset.block.trigFlag k = false) ∧
  State.reset.block.now = 0 ∧
  (∀ c, State.reset.block.disabled c = false)

/-- 42_orchestrator.md section 3: RESET completes in every state and gives every field its reset value; the configuration and
the calls to come are untouched. The values are the spec's choice D4 (log entry 9). -/
def Obligations.ResetRestoresPowerOnValues : Prop :=
  ∀ s : State, ∃ s', exec .reset s = .next s' ∧
    (∀ i, s'.block.timer i = ⟨0x00, 0x00, 0x00, 0x00, never⟩) ∧ (∀ c, s'.block.settings c = ⟨0, 0x00, 0x00, 0⟩) ∧
    (∀ k, s'.block.trigFlag k = false) ∧ s'.block.now = 0 ∧ s.SameOutside s' ∧ s'.result = .none

/-- 70_reset_and_hazards.md section 1 (an inference the spec marks as its own): from reset, `tick_all` of any tick returns
`(0x00, false)` and changes only `now`, and every peek returns 0x00. That every byte is 0 and no timer is due rests on the reset
values, the spec's own choice (92_eei_decisions.md D4, log entry 9). -/
def Obligations.FromResetNothingRuns : Prop :=
  ∀ cfg : Config,
    (∀ t, exec (.tickAll t) (State.resetWith cfg) =
      .next { State.resetWith cfg with block := { Block.reset with now := t }, result := .tickAll 0x00 false }) ∧
    (∀ i, isPeek i = true → exec i (State.resetWith cfg) = .next { State.resetWith cfg with result := .byte 0x00 })

/-- Rule R11: parameters that break one of the conditions build no machine, and all others build the machine they describe. -/
def Obligations.BadConfigurationsAreRefused : Prop :=
  ∀ p : Params,
    (Config.ofParams p = none ↔
      ¬ (1 ≤ p.baseTickUnit ∧ p.timerBase.toNat + 31 ≤ 0xFFFF ∧ p.audioBase.toNat + 31 ≤ 0xFFFF ∧
        (p.timerBase.toNat + 31 < p.audioBase.toNat ∨ p.audioBase.toNat + 31 < p.timerBase.toNat))) ∧
    (∀ cfg, Config.ofParams p = some cfg → cfg.toParams = p)

/-- No step changes the configuration, and a step takes at most the one call it performs off the list (both are the model's own
fields, log entries 1 and 3). -/
def Obligations.StepsKeepConfigurationAndCalls : Prop :=
  ∀ s s' : State, step s = .next s' → s'.cfg = s.cfg ∧ s'.pending = s.pending.tail

/-- 10_state.md section 4 and 00_scope.md section 4: the fixed links; no timer has two predecessors. -/
def Obligations.LinkTopology : Prop :=
  (link 0 = some 1 ∧ link 1 = some 2 ∧ link 2 = some 3 ∧ link 3 = some 4 ∧ link 4 = none ∧ link 5 = some 6 ∧ link 6 = none ∧
    link 7 = some 8 ∧ link 8 = some 9 ∧ link 9 = some 10 ∧ link 10 = some 11 ∧ link 11 = some 0) ∧
  (∀ i j k, link i = some k → link j = some k → i = j)

/-! ## Peeks -/

/-- Rules R220 to R222, and the value rule R223 returns: a peek in the base window completes in every state, returns the
register, and changes nothing else. -/
def Obligations.BasePeeksReturnRegisters : Prop :=
  ∀ (s : State) (i : BitVec 3),
    exec (.peekBkup i) s = .next { s with result := .byte (s.block.timer (baseTimer i)).backup } ∧
    (s.cfg.ctlaBit6Read = .asWritten →
      exec (.peekCtla i) s = .next { s with result := .byte (s.block.timer (baseTimer i)).ctla }) ∧
    (s.cfg.ctlaBit6Read = .zero →
      exec (.peekCtla i) s = .next { s with result := .byte ((s.block.timer (baseTimer i)).ctla &&& 0xBF) }) ∧
    exec (.peekCnt i) s = .next { s with result := .byte (s.block.timer (baseTimer i)).count } ∧
    exec (.peekCtlb i) s = .next { s with result := .byte (s.block.timer (baseTimer i)).ctlb }

/-- Rules R224 to R231: a peek in the audio window completes in every state, returns the register, and changes nothing else;
`audio_out` gives the peeked Output sign-extended. -/
def Obligations.AudioPeeksReturnRegisters : Prop :=
  ∀ (s : State) (c : BitVec 2),
    exec (.peekAvol c) s = .next { s with result := .byte (s.block.settings (channel c)).volume } ∧
    exec (.peekAfb c) s = .next { s with result := .byte (s.block.settings (channel c)).feedback } ∧
    exec (.peekAout c) s = .next { s with result := .byte (s.block.settings (channel c)).output } ∧
    exec (.audioOut (2#4 ++ c)) s = .next { s with result := .sample ((s.block.settings (channel c)).output.signExtend 16) } ∧
    exec (.peekAshift c) s = .next { s with result := .byte ((s.block.lfsr (channel c)).extractLsb' 0 8) } ∧
    exec (.peekAbkup c) s = .next { s with result := .byte (s.block.timer (audioTimer c)).backup } ∧
    (s.cfg.ctlaBit6Read = .asWritten →
      exec (.peekActla c) s = .next { s with result := .byte (s.block.timer (audioTimer c)).ctla }) ∧
    (s.cfg.ctlaBit6Read = .zero →
      exec (.peekActla c) s = .next { s with result := .byte ((s.block.timer (audioTimer c)).ctla &&& 0xBF) }) ∧
    exec (.peekAcnt c) s = .next { s with result := .byte (s.block.timer (audioTimer c)).count } ∧
    exec (.peekActlb c) s = .next { s with result := .byte (s.block.timer (audioTimer c)).ctlb } ∧
    (s.block.timer (audioTimer c)).ctlb =
      (s.block.lfsr (channel c)).extractLsb' 8 4 ++ (s.block.timer (audioTimer c)).ctlb.extractLsb' 0 4

/-! ## Pokes -/

/-- Rules R232, R240: a Backup poke completes in every state and stores the byte, and nothing else changes; on an audio timer
the fast-path flag follows. -/
def Obligations.BackupPokesStore : Prop :=
  (∀ (s : State) (i : BitVec 3) (v : Byte), ∃ s', exec (.pokeBkup i v) s = .next s' ∧
    s.PokedTimer (baseTimer i) { s.block.timer (baseTimer i) with backup := v } s') ∧
  (∀ (s : State) (c : BitVec 2) (v : Byte), ∃ s', exec (.pokeAbkup c v) s = .next s' ∧
    s.PokedTimer (audioTimer c) { s.block.timer (audioTimer c) with backup := v } s' ∧
    s'.block.disabled (channel c) = (v == 0x00 && (s.block.settings (channel c)).feedback == 0x01))

/-- Rules R235, R243: a ControlB poke completes in every state and stores all 8 bits, and nothing else changes; on an audio
timer `LFSR[11:8]` takes the top nibble; no other operation but RESET clears BOUT. -/
def Obligations.ControlBPokesStoreAllBits : Prop :=
  (∀ (s : State) (i : BitVec 3) (v : Byte), ∃ s', exec (.pokeCtlb i v) s = .next s' ∧
    s.PokedTimer (baseTimer i) { s.block.timer (baseTimer i) with ctlb := v } s') ∧
  (∀ (s : State) (c : BitVec 2) (v : Byte), ∃ s', exec (.pokeActlb c v) s = .next s' ∧
    s.PokedTimer (audioTimer c) { s.block.timer (audioTimer c) with ctlb := v } s' ∧
    (s'.block.lfsr (channel c)).extractLsb' 8 4 = v.extractLsb' 4 4 ∧
    (s'.block.lfsr (channel c)).extractLsb' 0 8 = (s.block.lfsr (channel c)).extractLsb' 0 8) ∧
  (∀ (ins : Instr) (s s' : State) (i : Fin 12), exec ins s = .next s' →
    (s.block.timer i).bout = true → (s'.block.timer i).bout = false →
    (∃ k v, ins = .pokeCtlb k v ∧ i = baseTimer k) ∨ (∃ c v, ins = .pokeActlb c v ∧ i = audioTimer c) ∨ ins = .reset)

/-- Rules R236, R238, R239: a Volume, Output or ShiftRegister poke completes in every state and stores the byte, and nothing
else changes; `audio_out` returns a poked Output at once, and a poked ShiftRegister is `LFSR[7:0]`. -/
def Obligations.VolumeOutputShiftPokesStore : Prop :=
  (∀ (s : State) (c : BitVec 2) (v : Byte), ∃ s', exec (.pokeAvol c v) s = .next s' ∧
    s.PokedSettings (channel c) { s.block.settings (channel c) with volume := v } s') ∧
  (∀ (s : State) (c : BitVec 2) (v : Byte), ∃ s', exec (.pokeAout c v) s = .next s' ∧
    s.PokedSettings (channel c) { s.block.settings (channel c) with output := v } s' ∧
    exec (.audioOut (2#4 ++ c)) s' = .next { s' with result := .sample (v.signExtend 16) }) ∧
  (∀ (s : State) (c : BitVec 2) (v : Byte), ∃ s', exec (.pokeAshift c v) s = .next s' ∧
    s.PokedSettings (channel c) { s.block.settings (channel c) with shiftLo := v } s' ∧
    (s'.block.lfsr (channel c)).extractLsb' 0 8 = v ∧
    (s'.block.lfsr (channel c)).extractLsb' 8 4 = (s.block.lfsr (channel c)).extractLsb' 8 4)

/-- Rule R237: a Feedback poke completes in every state and stores the byte, and nothing else changes, `next` among it; the
fast-path flag follows: 0x01 with backup 0 sets it, anything else clears it. -/
def Obligations.FeedbackPokeStores : Prop :=
  ∀ (s : State) (c : BitVec 2) (v : Byte), ∃ s', exec (.pokeAfb c v) s = .next s' ∧
    s.PokedSettings (channel c) { s.block.settings (channel c) with feedback := v } s' ∧
    s'.block.disabled (channel c) = (v == 0x01 && (s.block.timer (audioTimer c)).backup == 0x00)

/-- Rules R142, R233, R241: a ControlA poke stores the byte, does the reset-done action and reschedules; where the rescheduled
tick is not below 2^64 it faults instead. -/
def Obligations.ControlAPokesFollowSetControlA : Prop :=
  (∀ (s : State) (i : BitVec 3) (v : Byte), ControlAPoked s (baseTimer i) v (exec (.pokeCtla i v) s)) ∧
  (∀ (s : State) (c : BitVec 2) (v : Byte), ControlAPoked s (audioTimer c) v (exec (.pokeActla c v) s))

/-- Rules R143, R234, R242: a Count poke stores the byte and reschedules an armed timer where the byte is not 0; where the
rescheduled tick is not below 2^64 it faults instead. -/
def Obligations.CountPokesFollowSetCount : Prop :=
  (∀ (s : State) (i : BitVec 3) (v : Byte), CountPoked s (baseTimer i) v (exec (.pokeCnt i v) s)) ∧
  (∀ (s : State) (c : BitVec 2) (v : Byte), CountPoked s (audioTimer c) v (exec (.pokeAcnt c v) s))

/-- 20_memory.md section 3 (an inference the spec marks as its own): doing a peek or a poke twice leaves the same state as doing
it once. -/
def Obligations.PeeksAndPokesAreIdempotent : Prop :=
  ∀ (i : Instr) (s s' : State), isPeek i = true ∨ isPoke i = true → exec i s = .next s' → exec i s' = .next s'

/-- 30_encoding.md section 8: the two instructions SEED stands for leave the channel's LFSR at the given 12-bit value, with
ControlB bits 3..0 clear. -/
def Obligations.SeedSetsTheLfsr : Prop :=
  ∀ (s : State) (c : Fin 4) (x : U12), ∃ i j s₁ s₂,
    expandSeed (8 + c.val) x.toNat = .ok [i, j] ∧ exec i s = .next s₁ ∧ exec j s₁ = .next s₂ ∧
    s₂.block.lfsr c = x ∧ (s₂.block.timer (channelTimer c)).ctlb.extractLsb' 0 4 = 0

/-- 70_reset_and_hazards.md section 2 (an inference the spec marks as its own): Backup, Count and an arming ControlA, poked in
that order (pseudo-instruction ARM), leave the timer, base or audio, armed one clock interval after `now` with its count and its
reload value as given; nothing of any other timer changes. -/
def Obligations.ArmStartsATimer : Prop :=
  (∀ (s : State) (i : BitVec 3) (v a : Byte), ArmFits s (baseTimer i) v a →
    ∃ s₁ s₂ s₃, expandArm i.toNat v.toNat a.toNat = .ok [.pokeBkup i v, .pokeCnt i v, .pokeCtla i a] ∧
      exec (.pokeBkup i v) s = .next s₁ ∧ exec (.pokeCnt i v) s₁ = .next s₂ ∧ exec (.pokeCtla i a) s₂ = .next s₃ ∧
      s.PokedTimer (baseTimer i) (armedTimer s (baseTimer i) v a) s₃) ∧
  (∀ (s : State) (c : BitVec 2) (v a : Byte), ArmFits s (audioTimer c) v a →
    ∃ s₁ s₂ s₃, expandArm (8 + c.toNat) v.toNat a.toNat = .ok [.pokeAbkup c v, .pokeAcnt c v, .pokeActla c a] ∧
      exec (.pokeAbkup c v) s = .next s₁ ∧ exec (.pokeAcnt c v) s₁ = .next s₂ ∧ exec (.pokeActla c a) s₂ = .next s₃ ∧
      s.PokedTimer (audioTimer c) (armedTimer s (audioTimer c) v a) s₃)

/-! ## The operations TICKALL runs -/

/-- Rule R144: every case of a clock tick. -/
def Obligations.ClockTickFollowsTheRule : Prop :=
  ∀ (cfg : Config) (i : Fin 12) (t : Tick) (b : Block),
    let T := b.timer i
    let silenced := ∃ c, kind i = .audio c ∧ b.disabled c = true
    (silenced → cfg.fastpathTick = .frozen → clockTick cfg i t b = .ok ⟨b, false, 0⟩) ∧
    (¬ (silenced ∧ cfg.fastpathTick = .frozen) → (T.cen = false ∨ T.linked = true ∨ silenced) →
      clockTick cfg i t b = .ok ⟨b.setTimer i { T with ctlb := T.ctlb &&& 0xFD, next := never }, false, 0⟩) ∧
    (¬ silenced → T.cen = true → T.linked = false → clockedAt cfg T.ctla t < 2 ^ 64 →
      clockTick cfg i t b = .ok (countDown cfg i (b.setTimer i
        { T with ctlb := T.ctlb &&& 0xFD, next := some (BitVec.ofNat 64 (clockedAt cfg T.ctla t)) }))) ∧
    (¬ silenced → T.cen = true → T.linked = false → 2 ^ 64 ≤ clockedAt cfg T.ctla t →
      clockTick cfg i t b = .error (.tickOverflow i t))

/-- Rule R145: which timers a cascade pulse counts down, under each gate; any other is left alone and reports `(false, 0)`. -/
def Obligations.CascadePulseFollowsTheRule : Prop :=
  ∀ (cfg : Config) (j : Fin 12) (b : Block),
    let T := b.timer j
    let silenced := ∃ c, kind j = .audio c ∧ b.disabled c = true
    let gate := match cfg.linkedGate with
      | .none => True
      | .countEnable => T.cen = true
      | .enableAndNotDone => T.cen = true ∧ ¬ (T.reload = false ∧ T.done = true)
    (T.linked = true ∧ ¬ silenced ∧ gate → tickLinked cfg j b = countDown cfg j b) ∧
    (¬ (T.linked = true ∧ ¬ silenced ∧ gate) → tickLinked cfg j b = ⟨b, false, 0⟩)

/-- Rule R150: every case of a count-down step. -/
def Obligations.CountDownFollowsTheRule : Prop :=
  ∀ (cfg : Config) (i : Fin 12) (b : Block),
    let T := b.timer i
    let Z : Timer := { T with
      count := if T.reload then T.backup else 0
      next := if T.reload then T.next else never
      ctlb := T.ctlb ||| 0x09 }
    (∀ k : Fin 8, T.count = 0 → i = baseOf k →
      countDown cfg i b = ⟨(b.setTimer i Z).setTrig k true, true, if T.ie then BitVec.ofNat 8 (2 ^ k.val) else 0⟩) ∧
    (∀ c : Fin 4, T.count = 0 → i = channelTimer c → countDown cfg i b = ⟨lfsrStep cfg c (b.setTimer i Z), true, 0⟩) ∧
    (T.count ≠ 0 → countDown cfg i b = ⟨b.setTimer i { T with count := T.count - 1 }, false, 0⟩)

/-- Rules R172 to R174: an LFSR step shifts the LFSR left by one, inserts the inverted parity of the tapped bits, and writes the
result through ShiftRegister and ControlB[7:4]; ControlB[3:0] and what belongs to others stays. -/
def Obligations.LfsrStepShiftsInInvertedParity : Prop :=
  ∀ (cfg : Config) (c : Fin 4) (b : Block),
    (∀ k, k < 11 → ((lfsrStep cfg c b).lfsr c).getLsbD (k + 1) = (b.lfsr c).getLsbD k) ∧
    ((lfsrStep cfg c b).lfsr c).getLsbD 0 = decide (popcount (Block.taps cfg b c &&& b.lfsr c) % 2 = 0) ∧
    ((lfsrStep cfg c b).timer (channelTimer c)).ctlb.extractLsb' 0 4 = (b.timer (channelTimer c)).ctlb.extractLsb' 0 4 ∧
    (∃ x, (lfsrStep cfg c b).timer (channelTimer c) = { b.timer (channelTimer c) with ctlb := x }) ∧
    (∃ x y, (lfsrStep cfg c b).settings c = { b.settings c with shiftLo := x, output := y }) ∧
    Block.OnlyOwn (channelTimer c) b (lfsrStep cfg c b)

/-- Rule R176, with the saturation of rule R15: the new sample as an exact integer: accumulated in integrate mode, plus or minus
the volume otherwise, clamped to -128..127; up where the inserted bit is 0 under OUTPUT_SENSE LITERAL, where it is 1 under
INVERTED. -/
def Obligations.OutputFollowsTheRule : Prop :=
  ∀ (cfg : Config) (c : Fin 4) (b : Block),
    let A := b.settings c
    let clamp := fun n : Int => max (-128) (min 127 n)
    let up := ((lfsrStep cfg c b).lfsr c).getLsbD 0 = match cfg.outputSense with | .literal => false | .inverted => true
    let new := ((lfsrStep cfg c b).settings c).output.toInt
    ((b.timer (channelTimer c)).integ = true → up → new = clamp (A.output.toInt + A.volume.toInt)) ∧
    ((b.timer (channelTimer c)).integ = true → ¬ up → new = clamp (A.output.toInt - A.volume.toInt)) ∧
    ((b.timer (channelTimer c)).integ = false → up → new = A.volume.toInt) ∧
    ((b.timer (channelTimer c)).integ = false → ¬ up → new = clamp (-A.volume.toInt))

/-- Rule R170: every bit of the tap mask. -/
def Obligations.TapMaskBits : Prop :=
  ∀ (cfg : Config) (c : Fin 4) (b : Block) (k : Nat), k < 12 →
    (Block.taps cfg b c).getLsbD k =
      (((decide (k < 6) && (b.settings c).feedback.getLsbD k) || (k == 10 && (b.settings c).feedback.getLsbD 6) ||
        (k == 11 && (b.settings c).feedback.getLsbD 7)) ||
        (k == cfg.ctla7TapPos.val && (b.timer (channelTimer c)).ctla.getLsbD 7))

/-- 40_countdown.md section 5 (an inference the spec marks as its own): a timer whose count is N leaves N-1, ..., 0 on its first
N count-down steps, reporting nothing, and has its zero event on step N+1. -/
def Obligations.ZeroEventComesOnStepCountPlusOne : Prop :=
  ∀ (cfg : Config) (i : Fin 12) (b : Block) (k : Nat), k ≤ (b.timer i).count.toNat →
    ((afterSteps cfg i k b).timer i).count.toNat = (b.timer i).count.toNat - k ∧
    (countDown cfg i (afterSteps cfg i k b)).zero = decide (k = (b.timer i).count.toNat)

/-! ## TICKALL -/

/-- 42_orchestrator.md section 1 and 40_countdown.md section 3 (with the bounds the spec marks as its own inference): under the
invariant and the host's contract, TICKALL completes, and its sequential sweep with cascades gives what the state before it
determines for each timer by itself, in no order: each timer's record and settings, the sticky flags, the mask and the timer-4
output. -/
def Obligations.TickAllIsSimultaneous : Prop :=
  ∀ (s : State) (t : Tick), s.Inv → Block.TickSafe s.cfg s.block t →
    ∃ s' mask timer4, exec (.tickAll t) s = .next s' ∧ s'.result = .tickAll mask timer4 ∧ s.SameOutside s' ∧
      s'.block.now = t ∧
      (∀ i, s'.block.timer i = Block.timerAfter s.cfg s.block t i) ∧
      (∀ c, s'.block.settings c = Block.settingsAfter s.cfg s.block t c) ∧
      (∀ k, s'.block.trigFlag k = (s.block.trigFlag k || Block.zeroIn s.cfg s.block t (baseOf k))) ∧
      (∀ k : Fin 8, mask.getLsbD k.val = (Block.zeroIn s.cfg s.block t (baseOf k) && (s.block.timer (baseOf k)).ie)) ∧
      timer4 = Block.zeroIn s.cfg s.block t 4

/-- Rule R261: a tick below `now` faults with both ticks. -/
def Obligations.TickBelowNowFaults : Prop :=
  ∀ (s : State) (t : Tick), t.toNat < s.block.now.toNat → exec (.tickAll t) s = .fault (.tickDecreased t s.block.now)

/-- 60_exceptions.md sections 1 and 3: where the clock would reschedule timers past the top of the tick, TICKALL faults with the
first of them in processing order and the tick. -/
def Obligations.FirstTickOverflowFaults : Prop :=
  ∀ (s : State) (t : Tick) (i : Fin 12), s.Inv → s.block.now.toNat ≤ t.toNat →
    s.block.clocked t i = true → 2 ^ 64 ≤ clockedAt s.cfg (s.block.timer i).ctla t →
    (∀ j, j < i → s.block.clocked t j = true → clockedAt s.cfg (s.block.timer j).ctla t < 2 ^ 64) →
    exec (.tickAll t) s = .fault (.tickOverflow i t)

/-- 42_orchestrator.md section 1, corner cases: with no timer due, TICKALL gives `(0x00, false)` and changes only `now`. -/
def Obligations.TickAllWithNoTimerDue : Prop :=
  ∀ (s : State) (t : Tick), s.block.now.toNat ≤ t.toNat →
    (∀ i n, (s.block.timer i).next = some n → t.toNat < n.toNat) →
    exec (.tickAll t) s = .next { s with block := { s.block with now := t }, result := .tickAll 0x00 false }

/-- 10_state.md sections 2, 3 and 5: the frame of TICKALL, in every state: no Backup, ControlA, Volume or Feedback changes, no
sticky flag is cleared, ControlB keeps its unnamed bits, `now` is the tick. -/
def Obligations.TickAllFrame : Prop :=
  ∀ (s s' : State) (t : Tick), exec (.tickAll t) s = .next s' →
    s.SameOutside s' ∧ s'.block.now = t ∧ s.block.now.toNat ≤ t.toNat ∧
    (∀ i, (s'.block.timer i).backup = (s.block.timer i).backup ∧ (s'.block.timer i).ctla = (s.block.timer i).ctla ∧
      (s'.block.timer i).ctlb.getLsbD 2 = (s.block.timer i).ctlb.getLsbD 2) ∧
    (∀ k : Fin 8, (s'.block.timer (baseOf k)).ctlb.extractLsb' 4 4 = (s.block.timer (baseOf k)).ctlb.extractLsb' 4 4) ∧
    (∀ c, (s'.block.settings c).volume = (s.block.settings c).volume ∧
      (s'.block.settings c).feedback = (s.block.settings c).feedback) ∧
    (∀ k, s.block.trigFlag k = true → s'.block.trigFlag k = true) ∧
    (∃ mask timer4, s'.result = .tickAll mask timer4)

/-- 60_exceptions.md section 2: in every state, a mask bit belongs to a base timer whose IE is set, and it and the timer-4
output come with that timer's sticky flag, DONE and BOUT. -/
def Obligations.MaskBitsComeWithZeroEvents : Prop :=
  ∀ (s s' : State) (t : Tick) (mask : Byte) (timer4 : Bool),
    exec (.tickAll t) s = .next s' → s'.result = .tickAll mask timer4 →
    (∀ k : Fin 8, mask.getLsbD k.val = true →
      (s.block.timer (baseOf k)).ie = true ∧ s'.block.trigFlag k = true ∧
      (s'.block.timer (baseOf k)).done = true ∧ (s'.block.timer (baseOf k)).bout = true) ∧
    (timer4 = true → s'.block.trigFlag 4 = true ∧ (s'.block.timer 4).done = true ∧ (s'.block.timer 4).bout = true)

/-- 42_orchestrator.md section 1 (an inference the spec marks as its own): in one TICKALL every timer makes at most one
count-down step. All that belongs to it, its record, its channel's LFSR and sample and its sticky flag, is what the clock and at
most one step leave; so its count is kept, lowered by one, or reloaded. -/
def Obligations.EachTimerCountsAtMostOnce : Prop :=
  ∀ (s s' : State) (t : Tick), s.Inv → exec (.tickAll t) s = .next s' → ∀ i,
    Block.StepsAtMostOnce s.cfg t i s.block s'.block ∧
    ((s'.block.timer i).count = (s.block.timer i).count ∨
      ((s.block.timer i).count ≠ 0 ∧ (s'.block.timer i).count = (s.block.timer i).count - 1) ∨
      ((s.block.timer i).count = 0 ∧ (s.block.timer i).reload = true ∧ (s'.block.timer i).count = (s.block.timer i).backup))

/-- 40_countdown.md section 5 (an inference the spec marks as its own): a timer the clock counts down is next clocked one
interval after this tick, unless this was the end of a one-shot. -/
def Obligations.ClockedTimerIsRescheduledFromTheTick : Prop :=
  ∀ (s : State) (t : Tick) (i : Fin 12), s.Inv → Block.TickSafe s.cfg s.block t → s.block.clocked t i = true →
    ∃ s', exec (.tickAll t) s = .next s' ∧
      (s'.block.timer i).next =
        (if (s.block.timer i).count = 0 ∧ (s.block.timer i).reload = false then never
         else some (BitVec.ofNat 64 (clockedAt s.cfg (s.block.timer i).ctla t)))

/-- 41_audio.md section 4 (an inference the spec marks as its own): TICKALL leaves an audio timer whose fast-path flag is set
alone, wholly under FASTPATH_TICK = FROZEN; under IDLE all but BIN and `next` stay. -/
def Obligations.FastPathIsSilent : Prop :=
  ∀ (s s' : State) (t : Tick) (c : Fin 4), s.block.disabled c = true → exec (.tickAll t) s = .next s' →
    s'.block.settings c = s.block.settings c ∧ s'.block.lfsr c = s.block.lfsr c ∧
    (s'.block.timer (channelTimer c)).count = (s.block.timer (channelTimer c)).count ∧
    (s'.block.timer (channelTimer c)).done = (s.block.timer (channelTimer c)).done ∧
    (s'.block.timer (channelTimer c)).bout = (s.block.timer (channelTimer c)).bout ∧
    (s.cfg.fastpathTick = .frozen → s'.block.timer (channelTimer c) = s.block.timer (channelTimer c)) ∧
    (s.cfg.fastpathTick = .idle → due (s.block.timer (channelTimer c)).next t = true →
      s'.block.timer (channelTimer c) =
        { s.block.timer (channelTimer c) with ctlb := (s.block.timer (channelTimer c)).ctlb &&& 0xFD, next := never })

/-! ## Queries -/

/-- Rule R193: HSYNC completes in every state, returns and clears the sticky flag of timer 0, and changes nothing else; an
immediate second call returns false. -/
def Obligations.HsyncReadsAndClears : Prop :=
  ∀ s : State, ∃ s', exec .hsync s = .next s' ∧ s'.result = .flag (s.block.trigFlag 0) ∧ s'.block.trigFlag 0 = false ∧
    Block.OnlyTrig 0 s.block s'.block ∧ s.SameOutside s' ∧ ∃ s'', exec .hsync s' = .next s'' ∧ s''.result = .flag false

/-- Rule R194: VSYNC completes in every state, returns and clears the sticky flag of timer 2, and changes nothing else; an
immediate second call returns false. -/
def Obligations.VsyncReadsAndClears : Prop :=
  ∀ s : State, ∃ s', exec .vsync s = .next s' ∧ s'.result = .flag (s.block.trigFlag 2) ∧ s'.block.trigFlag 2 = false ∧
    Block.OnlyTrig 2 s.block s'.block ∧ s.SameOutside s' ∧ ∃ s'', exec .vsync s' = .next s'' ∧ s''.result = .flag false

/-- Rule R195: TRIG of a timer returns its next-trigger tick and changes nothing else; of an id 12 to 15 it faults with the
word. -/
def Obligations.TrigReturnsTheNextTick : Prop :=
  (∀ (s : State) (i : Fin 12), exec (.trig (BitVec.ofNat 4 i.val)) s = .next { s with result := .tick (s.block.timer i).next }) ∧
  (∀ (s : State) (id : BitVec 4), 12 ≤ id.toNat → exec (.trig id) s = .fault (.badTimerId (0b010100#6 ++ id)))

/-- Rule R196: AUDIOOUT completes in every state and changes nothing else; it returns the channel's sample sign-extended for
channels 8 to 11, 0 for every other. -/
def Obligations.AudioOutReturnsTheSample : Prop :=
  (∀ (s : State) (c : Fin 4), exec (.audioOut (BitVec.ofNat 6 (8 + c.val))) s =
    .next { s with result := .sample ((s.block.settings c).output.signExtend 16) }) ∧
  (∀ (s : State) (n : BitVec 6), n.toNat < 8 ∨ 11 < n.toNat → exec (.audioOut n) s = .next { s with result := .sample 0x0000 })

/-! ## The whole machine -/

/-- 10_state.md section 6 (an inference the spec marks as its own): every step keeps the invariants: a linked timer and a timer
with CEN clear are never clocked, and no `next` is more than 64 × BASE_TICK_UNIT past `now`. -/
def Obligations.EveryStepKeepsTheInvariant : Prop :=
  ∀ s s' : State, s.Inv → step s = .next s' → s'.Inv

/-- 10_state.md sections 6 and 7: the machine after power-on meets the invariants of rule R57 (an inference the spec marks as its
own), under every configuration. It rests on the reset values, the spec's own choice (92_eei_decisions.md D4, log entry 9). -/
def Obligations.PowerOnMeetsTheInvariant : Prop :=
  State.reset.Inv ∧ ∀ cfg, (State.resetWith cfg).Inv

/-- 10_state.md section 2: no operation other than a ControlA poke of that timer and RESET changes a ControlA byte. -/
def Obligations.ControlAChangesOnlyByItsPoke : Prop :=
  ∀ (ins : Instr) (s s' : State) (i : Fin 12), exec ins s = .next s' → (s'.block.timer i).ctla ≠ (s.block.timer i).ctla →
    (∃ k v, ins = .pokeCtla k v ∧ i = baseTimer k) ∨ (∃ c v, ins = .pokeActla c v ∧ i = audioTimer c) ∨ ins = .reset

/-- 10_state.md section 2: no operation other than a Backup poke of that timer and RESET changes a reload value. -/
def Obligations.BackupChangesOnlyByItsPoke : Prop :=
  ∀ (ins : Instr) (s s' : State) (i : Fin 12), exec ins s = .next s' → (s'.block.timer i).backup ≠ (s.block.timer i).backup →
    (∃ k v, ins = .pokeBkup k v ∧ i = baseTimer k) ∨ (∃ c v, ins = .pokeAbkup c v ∧ i = audioTimer c) ∨ ins = .reset

/-- 10_state.md section 3: no operation other than the register's poke and RESET changes a channel's Volume or Feedback. -/
def Obligations.VolumeAndFeedbackChangeOnlyByTheirPokes : Prop :=
  ∀ (ins : Instr) (s s' : State) (c : Fin 4), exec ins s = .next s' →
    ((s'.block.settings c).volume ≠ (s.block.settings c).volume → (∃ d v, ins = .pokeAvol d v ∧ c = channel d) ∨ ins = .reset) ∧
    ((s'.block.settings c).feedback ≠ (s.block.settings c).feedback → (∃ d v, ins = .pokeAfb d v ∧ c = channel d) ∨ ins = .reset)

/-- 10_state.md section 5: the current tick is written only by TICKALL, which never lowers it, and by RESET. -/
def Obligations.NowChangesOnlyByTickAllAndReset : Prop :=
  ∀ (ins : Instr) (s s' : State), exec ins s = .next s' →
    s'.block.now = s.block.now ∨ (ins = .tickAll s'.block.now ∧ s.block.now.toNat ≤ s'.block.now.toNat) ∨
      (ins = .reset ∧ s'.block.now = 0)

/-- 10_state.md section 5: a sticky flag is set only by TICKALL, and cleared only by HSYNC (timer 0), VSYNC (timer 2) and
RESET. -/
def Obligations.TrigFlagsChangeOnlyAsStated : Prop :=
  ∀ (ins : Instr) (s s' : State) (k : Fin 8), exec ins s = .next s' →
    (s.block.trigFlag k = false → s'.block.trigFlag k = true → ∃ t, ins = .tickAll t) ∧
    (s.block.trigFlag k = true → s'.block.trigFlag k = false → (ins = .hsync ∧ k = 0) ∨ (ins = .vsync ∧ k = 2) ∨ ins = .reset)

/-- 10_state.md section 2, the status bits' table: DONE is cleared only by a ControlA poke with bit 6 set, a ControlB poke and
RESET; BOUT only by a ControlB poke and RESET; BIN is set only by a ControlB poke. -/
def Obligations.StatusBitsChangeOnlyAsStated : Prop :=
  ∀ (ins : Instr) (s s' : State) (i : Fin 12), exec ins s = .next s' →
    let ctlbPoke := (∃ k v, ins = .pokeCtlb k v ∧ i = baseTimer k) ∨ (∃ c v, ins = .pokeActlb c v ∧ i = audioTimer c)
    let ackPoke := (∃ k v, ins = .pokeCtla k v ∧ i = baseTimer k ∧ v.getLsbD 6 = true) ∨
      (∃ c v, ins = .pokeActla c v ∧ i = audioTimer c ∧ v.getLsbD 6 = true)
    ((s.block.timer i).done = true → (s'.block.timer i).done = false → ackPoke ∨ ctlbPoke ∨ ins = .reset) ∧
    ((s.block.timer i).bout = true → (s'.block.timer i).bout = false → ctlbPoke ∨ ins = .reset) ∧
    ((s.block.timer i).bin = false → (s'.block.timer i).bin = true → ctlbPoke)

/-- 10_state.md sections 2 and 3: a live count is changed only by a Count poke of that timer, TICKALL and RESET; a sample only
by an Output poke of that channel, TICKALL and RESET; a ShiftRegister byte only by its poke, TICKALL and RESET. -/
def Obligations.CountsAndSamplesChangeOnlyAsStated : Prop :=
  ∀ (ins : Instr) (s s' : State), exec ins s = .next s' →
    (∀ i, (s'.block.timer i).count ≠ (s.block.timer i).count →
      (∃ k v, ins = .pokeCnt k v ∧ i = baseTimer k) ∨ (∃ c v, ins = .pokeAcnt c v ∧ i = audioTimer c) ∨
        (∃ t, ins = .tickAll t) ∨ ins = .reset) ∧
    (∀ c, (s'.block.settings c).output ≠ (s.block.settings c).output →
      (∃ d v, ins = .pokeAout d v ∧ c = channel d) ∨ (∃ t, ins = .tickAll t) ∨ ins = .reset) ∧
    (∀ c, (s'.block.settings c).shiftLo ≠ (s.block.settings c).shiftLo →
      (∃ d v, ins = .pokeAshift d v ∧ c = channel d) ∨ (∃ t, ins = .tickAll t) ∨ ins = .reset)

/-! ## Program notation -/

/-- 30_encoding.md section 8: `peek` and `poke` of an address stand for the line with the mnemonic that the address selects, its
id and the same value, whatever the value: one that this mnemonic does not take is refused alike. -/
def Obligations.AddressLinesExpandToTheirMnemonics : Prop :=
  (∀ (cfg : Config) (i : BitVec 3) (n : Int) (r : List String),
    let a := fun k : Nat => ((cfg.timerBase.toNat + 4 * i.toNat + k : Nat) : Int)
    let peek := fun k => assembleLine cfg ⟨"peek", [a k], r⟩
    let poke := fun k => assembleLine cfg ⟨"poke", [a k, n], r⟩
    let id : Int := i.toNat
    peek 0 = assembleLine cfg ⟨"PEEK.BKUP", [id], r⟩ ∧ poke 0 = assembleLine cfg ⟨"POKE.BKUP", [id, n], r⟩ ∧
    peek 1 = assembleLine cfg ⟨"PEEK.CTLA", [id], r⟩ ∧ poke 1 = assembleLine cfg ⟨"POKE.CTLA", [id, n], r⟩ ∧
    peek 2 = assembleLine cfg ⟨"PEEK.CNT", [id], r⟩ ∧ poke 2 = assembleLine cfg ⟨"POKE.CNT", [id, n], r⟩ ∧
    peek 3 = assembleLine cfg ⟨"PEEK.CTLB", [id], r⟩ ∧ poke 3 = assembleLine cfg ⟨"POKE.CTLB", [id, n], r⟩) ∧
  (∀ (cfg : Config) (c : BitVec 2) (n : Int) (r : List String),
    let a := fun k : Nat => ((cfg.audioBase.toNat + 8 * c.toNat + k : Nat) : Int)
    let peek := fun k => assembleLine cfg ⟨"peek", [a k], r⟩
    let poke := fun k => assembleLine cfg ⟨"poke", [a k, n], r⟩
    let id : Int := ((8 + c.toNat : Nat) : Int)
    peek 0 = assembleLine cfg ⟨"PEEK.AVOL", [id], r⟩ ∧ poke 0 = assembleLine cfg ⟨"POKE.AVOL", [id, n], r⟩ ∧
    peek 1 = assembleLine cfg ⟨"PEEK.AFB", [id], r⟩ ∧ poke 1 = assembleLine cfg ⟨"POKE.AFB", [id, n], r⟩ ∧
    peek 2 = assembleLine cfg ⟨"PEEK.AOUT", [id], r⟩ ∧ poke 2 = assembleLine cfg ⟨"POKE.AOUT", [id, n], r⟩ ∧
    peek 3 = assembleLine cfg ⟨"PEEK.ASHIFT", [id], r⟩ ∧ poke 3 = assembleLine cfg ⟨"POKE.ASHIFT", [id, n], r⟩ ∧
    peek 4 = assembleLine cfg ⟨"PEEK.ABKUP", [id], r⟩ ∧ poke 4 = assembleLine cfg ⟨"POKE.ABKUP", [id, n], r⟩ ∧
    peek 5 = assembleLine cfg ⟨"PEEK.ACTLA", [id], r⟩ ∧ poke 5 = assembleLine cfg ⟨"POKE.ACTLA", [id, n], r⟩ ∧
    peek 6 = assembleLine cfg ⟨"PEEK.ACNT", [id], r⟩ ∧ poke 6 = assembleLine cfg ⟨"POKE.ACNT", [id, n], r⟩ ∧
    peek 7 = assembleLine cfg ⟨"PEEK.ACTLB", [id], r⟩ ∧ poke 7 = assembleLine cfg ⟨"POKE.ACTLB", [id, n], r⟩)
end

