-- ==== Sys2Proof/Laws/Assembler.lean ====
section
/-! SUPPORT. One lemma per step of the program notation, so that no later proof unfolds a match on mnemonics. -/

namespace Sys2Proof.Machine

theorem assembleLine_peek (cfg : Config) (x : Int) (r : List String) :
    assembleLine cfg ⟨"peek", [x], r⟩ = (asmField 16 x).bind fun a => expandAccess cfg (.peek a) := rfl

theorem assembleLine_poke (cfg : Config) (x v : Int) (r : List String) :
    assembleLine cfg ⟨"poke", [x, v], r⟩ = (asmField 16 x).bind fun a => expandPoke cfg a v := rfl

/-- A line whose mnemonic is no pseudo-instruction stands for the one instruction of its mnemonic. -/
theorem assembleLine_core (cfg : Config) (m : String) (ops : List Int) (r : List String)
    (h : ∀ p ∈ ["ARM", "ACKDONE", "SEED", "TAPS", "peek", "poke"], m ≠ p) :
    assembleLine cfg ⟨m, ops, r⟩ = asmSingle (assembleCore m ops) := by
  simp only [List.mem_cons, List.not_mem_nil, or_false, forall_eq_or_imp, forall_eq] at h
  unfold assembleLine
  split <;> simp_all

/-- An address as an operand. -/
theorem asmField_natCast (w n : Nat) (h : n < 2 ^ w) : asmField w n = .ok (BitVec.ofNat w n) := by
  have h' : (0 : Int) ≤ n ∧ (n : Int) < 2 ^ w := ⟨by omega, by exact_mod_cast h⟩
  rw [asmField, if_pos h', BitVec.ofInt_natCast]

/-- A poke by address whose register is known: its value is read as that register's mnemonic reads it. -/
theorem expandPoke_of_toInstr {cfg : Config} {addr : Addr} (f : Byte → Instr) (v : Int)
    (h : ∀ d, Request.toInstr cfg (.poke addr d) = .ok (f d)) :
    expandPoke cfg addr v = (asmPokeValue (f 0) v).map fun d => [f d] := by
  simp only [expandPoke, h, expandAccess]
  cases asmPokeValue (f 0) v <;> rfl

end Sys2Proof.Machine
end

