-- ==== Sys2Proof/Laws/Invariant.lean ====
section
/-! SUPPORT. The invariants of 10_state.md rule R57 as a check that can be evaluated, for witnesses and tests. -/

namespace Sys2Proof.Machine

/-- `Timer.Inv` as a Bool. -/
def Timer.invCheck (cfg : Config) (now : Tick) (T : Timer) : Bool :=
  match T.next with
  | none => true
  | some n => !T.linked && T.cen && decide (n.toNat ≤ now.toNat + 64 * cfg.baseTickUnit)

/-- The check says what the invariant says. -/
theorem invCheck_iff (cfg : Config) (now : Tick) (T : Timer) : T.invCheck cfg now = true ↔ Timer.Inv cfg now T := by
  unfold Timer.invCheck Timer.Inv
  cases h : T.next with
  | none => simp
  | some n => simp [and_assoc]

/-- The invariants of a state hold where every timer passes the check. -/
theorem inv_of_check {s : State} (h : ∀ i, (s.block.timer i).invCheck s.cfg s.block.now = true) : s.Inv :=
  fun i => (invCheck_iff _ _ _).1 (h i)

end Sys2Proof.Machine
end

