-- ==== Sys2Proof/Laws/State.lean ====
section
/-! SUPPORT. Small lemmas about the state: each field of each update, so that no later proof unfolds a record update. -/

namespace Sys2Proof.Machine

variable (b : Block) (s : State) (i j : Fin 12) (c d : Fin 4) (k m : Fin 8) (T : Timer) (A : AudioSettings) (v : Bool) (t : Tick)

@[simp] theorem timer_setTimer_self : (b.setTimer i T).timer i = T := by
  simp [Block.timer, Block.setTimer]

@[simp] theorem timer_setTimer_of_ne (h : j ≠ i) : (b.setTimer i T).timer j = b.timer j := by
  have : i.val ≠ j.val := fun e => h (Fin.ext e.symm)
  simp [Block.timer, Block.setTimer, this]

@[simp] theorem settings_setTimer : (b.setTimer i T).settings c = b.settings c := rfl
@[simp] theorem trigFlag_setTimer : (b.setTimer i T).trigFlag k = b.trigFlag k := rfl
@[simp] theorem now_setTimer : (b.setTimer i T).now = b.now := rfl

@[simp] theorem settings_setSettings_self : (b.setSettings c A).settings c = A := by
  simp [Block.settings, Block.setSettings]

@[simp] theorem settings_setSettings_of_ne (h : d ≠ c) : (b.setSettings c A).settings d = b.settings d := by
  have : c.val ≠ d.val := fun e => h (Fin.ext e.symm)
  simp [Block.settings, Block.setSettings, this]

@[simp] theorem timer_setSettings : (b.setSettings c A).timer i = b.timer i := rfl
@[simp] theorem trigFlag_setSettings : (b.setSettings c A).trigFlag k = b.trigFlag k := rfl
@[simp] theorem now_setSettings : (b.setSettings c A).now = b.now := rfl

@[simp] theorem trigFlag_setTrig_self : (b.setTrig k v).trigFlag k = v := by
  simp [Block.trigFlag, Block.setTrig]

@[simp] theorem trigFlag_setTrig_of_ne (h : m ≠ k) : (b.setTrig k v).trigFlag m = b.trigFlag m := by
  have : k.val ≠ m.val := fun e => h (Fin.ext e.symm)
  simp [Block.trigFlag, Block.setTrig, this]

@[simp] theorem timer_setTrig : (b.setTrig k v).timer i = b.timer i := rfl
@[simp] theorem settings_setTrig : (b.setTrig k v).settings c = b.settings c := rfl
@[simp] theorem now_setTrig : (b.setTrig k v).now = b.now := rfl

@[simp] theorem timer_setNow : (b.setNow t).timer i = b.timer i := rfl
@[simp] theorem settings_setNow : (b.setNow t).settings c = b.settings c := rfl
@[simp] theorem trigFlag_setNow : (b.setNow t).trigFlag k = b.trigFlag k := rfl
@[simp] theorem now_setNow : (b.setNow t).now = t := rfl

@[simp] theorem timer_reset : Block.reset.timer i = Timer.reset := by simp [Block.timer, Block.reset]
@[simp] theorem settings_reset : Block.reset.settings c = AudioSettings.reset := by simp [Block.settings, Block.reset]
@[simp] theorem trigFlag_reset : Block.reset.trigFlag k = false := by simp [Block.trigFlag, Block.reset]
@[simp] theorem now_reset : Block.reset.now = 0 := rfl

/-- Two blocks that agree in everything that can be read are the same block. -/
theorem block_ext {b b' : Block} (ht : ∀ i, b.timer i = b'.timer i) (hs : ∀ c, b.settings c = b'.settings c)
    (hf : ∀ k, b.trigFlag k = b'.trigFlag k) (hn : b.now = b'.now) : b = b' := by
  cases b with | mk ts as fs n => cases b' with | mk ts' as' fs' n' =>
  congr 1
  · exact Vector.ext fun i hi => ht ⟨i, hi⟩
  · exact Vector.ext fun i hi => hs ⟨i, hi⟩
  · exact Vector.ext fun i hi => hf ⟨i, hi⟩

/-- How `finish` ends: always in a next state, the one with this block and this result. -/
theorem finish_eq_next {r : Result} {s' : State} : s.finish b r = .next s' ↔ s' = { s with block := b, result := r } := by
  simp [State.finish, eq_comm]

/-- How a poke ends: in a next state exactly where the operation gives a block. -/
theorem finishPoke_eq_next {r : Except Fault Block} {s' : State} :
    s.finishPoke r = .next s' ↔ ∃ b', r = .ok b' ∧ s' = { s with block := b', result := .none } := by
  cases r <;> simp [State.finishPoke, raiseFault, finish_eq_next]

/-- How a poke faults: exactly where the operation does. -/
theorem finishPoke_eq_fault {r : Except Fault Block} {f : Fault} : s.finishPoke r = .fault f ↔ r = .error f := by
  cases r <;> simp [State.finishPoke, raiseFault, State.finish]

/-- Where a reschedule succeeds, and with what. -/
theorem reschedule_eq_ok {cfg : Config} {a : Byte} {o n : Tick} :
    reschedule cfg i a o = .ok n ↔ o.toNat + clockTicks cfg a < 2 ^ 64 ∧ n = BitVec.ofNat 64 (o.toNat + clockTicks cfg a) := by
  unfold reschedule
  split <;> simp_all [eq_comm]

/-- Where a reschedule faults, and with what. -/
theorem reschedule_eq_error {cfg : Config} {a : Byte} {o : Tick} {f : Fault} :
    reschedule cfg i a o = .error f ↔ 2 ^ 64 ≤ o.toNat + clockTicks cfg a ∧ f = .tickOverflow i o := by
  unfold reschedule
  split <;> simp_all [eq_comm]

end Sys2Proof.Machine
end

