-- ==== Sys2Proof/Laws/Ops.lean ====
section
/-! SUPPORT. One lemma per shared operation, saying once everything it can do, and what each leaves alone. -/

namespace Sys2Proof.Machine

/-! ## Kinds -/

theorem kind_channelTimer (c : Fin 4) : kind (channelTimer c) = .audio c := by
  revert c; decide

theorem kind_baseOf (k : Fin 8) : kind (baseOf k) = .base k := by
  revert k; decide

theorem eq_baseOf_of_kind {i : Fin 12} {k : Fin 8} (h : kind i = .base k) : i = baseOf k := by
  revert i k; decide

theorem eq_channelTimer_of_kind {i : Fin 12} {c : Fin 4} (h : kind i = .audio c) : i = channelTimer c := by
  revert i c; decide

theorem baseTimer_eq_baseOf (i : BitVec 3) : ∃ k, baseTimer i = baseOf k :=
  ⟨⟨i.toNat, i.isLt⟩, rfl⟩

theorem channelTimer_injective {c d : Fin 4} (h : channelTimer c = channelTimer d) : c = d := by
  revert c d; decide

/-! ## Register writes (rules R142, R143) -/

/-- Everything `set_control_a` can answer. -/
theorem setControlA_eq_ok {cfg : Config} {i : Fin 12} {v : Byte} {b b' : Block} :
    setControlA cfg i v b = .ok b' ↔
      ∃ next, b' = b.setTimer i ((b.timer i).writeControlA v next) ∧
        ((arms v = true ∧ ∃ n, reschedule cfg i v b.now = .ok n ∧ next = some n) ∨ (arms v = false ∧ next = never)) := by
  unfold setControlA
  cases h : arms v
  · simp [eq_comm]
  · cases hr : reschedule cfg i v b.now <;> simp [eq_comm]

/-- `set_control_a` faults exactly where the reschedule does. -/
theorem setControlA_eq_error {cfg : Config} {i : Fin 12} {v : Byte} {b : Block} {f : Fault} :
    setControlA cfg i v b = .error f ↔ arms v = true ∧ reschedule cfg i v b.now = .error f := by
  unfold setControlA
  cases h : arms v
  · simp
  · cases hr : reschedule cfg i v b.now <;> simp

/-- Everything `set_count` can answer. -/
theorem setCount_eq_ok {cfg : Config} {i : Fin 12} {v : Byte} {b b' : Block} :
    setCount cfg i v b = .ok b' ↔
      ∃ next, b' = b.setTimer i { b.timer i with count := v, next := next } ∧
        (((arms (b.timer i).ctla && v != 0) = true ∧ ∃ n, reschedule cfg i (b.timer i).ctla b.now = .ok n ∧ next = some n) ∨
          ((arms (b.timer i).ctla && v != 0) = false ∧ next = (b.timer i).next)) := by
  unfold setCount
  cases h : arms (b.timer i).ctla && v != 0
  · simp [eq_comm]
  · cases hr : reschedule cfg i (b.timer i).ctla b.now <;> simp [eq_comm]

/-- `set_count` faults exactly where the reschedule does. -/
theorem setCount_eq_error {cfg : Config} {i : Fin 12} {v : Byte} {b : Block} {f : Fault} :
    setCount cfg i v b = .error f ↔
      (arms (b.timer i).ctla && v != 0) = true ∧ reschedule cfg i (b.timer i).ctla b.now = .error f := by
  unfold setCount
  cases h : arms (b.timer i).ctla && v != 0
  · simp
  · cases hr : reschedule cfg i (b.timer i).ctla b.now <;> simp

/-! ## What belongs to one timer -/

theorem OnlyOwn.refl (i : Fin 12) (b : Block) : Block.OnlyOwn i b b :=
  ⟨fun _ _ => rfl, fun _ _ => rfl, fun _ _ => rfl, rfl⟩

theorem OnlyOwn.trans {i : Fin 12} {a b c : Block} (h : Block.OnlyOwn i a b) (g : Block.OnlyOwn i b c) :
    Block.OnlyOwn i a c :=
  ⟨fun j hj => (g.1 j hj).trans (h.1 j hj), fun d hd => (g.2.1 d hd).trans (h.2.1 d hd),
    fun k hk => (g.2.2.1 k hk).trans (h.2.2.1 k hk), g.2.2.2.trans h.2.2.2⟩

theorem setTimer_onlyOwn (i : Fin 12) (b : Block) (T : Timer) : Block.OnlyOwn i b (b.setTimer i T) :=
  ⟨fun _ hj => timer_setTimer_of_ne _ _ _ _ hj, fun _ _ => rfl, fun _ _ => rfl, rfl⟩

/-! ## The LFSR step (rule R175) -/

@[simp] theorem trigFlag_lfsrStep (cfg : Config) (c : Fin 4) (b : Block) (k : Fin 8) :
    (lfsrStep cfg c b).trigFlag k = b.trigFlag k := rfl

@[simp] theorem now_lfsrStep (cfg : Config) (c : Fin 4) (b : Block) : (lfsrStep cfg c b).now = b.now := rfl

/-- The record of the channel's timer after the step: only the LFSR nibble of ControlB is new. -/
theorem timer_lfsrStep_self (cfg : Config) (c : Fin 4) (b : Block) :
    (lfsrStep cfg c b).timer (channelTimer c) =
      Block.steppedTimer cfg b c := by
  simp [lfsrStep]

/-- The channel's settings after the step: the low LFSR byte and the output sample are new. -/
theorem settings_lfsrStep_self (cfg : Config) (c : Fin 4) (b : Block) :
    (lfsrStep cfg c b).settings c =
      Block.steppedSettings cfg b c := by
  simp [lfsrStep]

theorem lfsrStep_onlyOwn (cfg : Config) (c : Fin 4) (b : Block) :
    Block.OnlyOwn (channelTimer c) b (lfsrStep cfg c b) := by
  refine ⟨fun j hj => ?_, fun d hd => ?_, fun _ _ => rfl, rfl⟩
  · simp [lfsrStep, hj]
  · have : d ≠ c := fun e => hd (e ▸ rfl)
    simp [lfsrStep, this]

/-! ## The count-down step (rule R150) -/

/-- Everything `count_down` can do: a plain decrement, or the zero event of a base or of an audio timer. -/
theorem countDown_cases (cfg : Config) (i : Fin 12) (b : Block) :
    ((b.timer i).count ≠ 0 ∧ countDown cfg i b = StepOut.quiet (b.setTimer i (b.timer i).decremented)) ∨
    (∃ k, (b.timer i).count = 0 ∧ kind i = .base k ∧
        countDown cfg i b = ⟨(b.setTimer i (b.timer i).zeroEvent).setTrig k true, true, interruptBit k (b.timer i).ie⟩) ∨
    (∃ c, (b.timer i).count = 0 ∧ kind i = .audio c ∧
        countDown cfg i b = ⟨lfsrStep cfg c (b.setTimer i (b.timer i).zeroEvent), true, 0⟩) := by
  by_cases h : (b.timer i).count = 0
  · cases hk : kind i with
    | base k => exact .inr (.inl ⟨k, h, rfl, by rw [countDown, if_pos h, zeroStep, hk]⟩)
    | audio c => exact .inr (.inr ⟨c, h, rfl, by rw [countDown, if_pos h, zeroStep, hk]⟩)
  · exact .inl ⟨h, by rw [countDown, if_neg h]⟩

/-- The step reports a zero event exactly where it finds the count at 0. -/
theorem countDown_zero (cfg : Config) (i : Fin 12) (b : Block) :
    (countDown cfg i b).zero = true ↔ (b.timer i).count = 0 := by
  rcases countDown_cases cfg i b with ⟨h, e⟩ | ⟨k, h, -, e⟩ | ⟨c, h, -, e⟩
  · rw [e]; exact iff_of_false Bool.false_ne_true h
  · rw [e]; exact iff_of_true rfl h
  · rw [e]; exact iff_of_true rfl h

/-- A count-down step of timer `i` touches what belongs to timer `i` alone. -/
theorem countDown_onlyOwn (cfg : Config) (i : Fin 12) (b : Block) : Block.OnlyOwn i b (countDown cfg i b).block := by
  rcases countDown_cases cfg i b with ⟨-, e⟩ | ⟨k, -, hk, e⟩ | ⟨c, -, hk, e⟩ <;> rw [e]
  · exact setTimer_onlyOwn i b _
  · refine OnlyOwn.trans (setTimer_onlyOwn i b (b.timer i).zeroEvent)
      ⟨fun _ _ => rfl, fun _ _ => rfl, fun m hm => ?_, rfl⟩
    have : m ≠ k := fun h => hm (h ▸ (eq_baseOf_of_kind hk).symm)
    simp [this]
  · have hi := eq_channelTimer_of_kind hk
    subst hi
    exact OnlyOwn.trans (setTimer_onlyOwn _ b _) (lfsrStep_onlyOwn cfg c _)

/-- The record of the timer after its step: backup and ControlA are never written. -/
theorem timer_countDown_self (cfg : Config) (i : Fin 12) (b : Block) :
    ((countDown cfg i b).block.timer i).backup = (b.timer i).backup ∧
      ((countDown cfg i b).block.timer i).ctla = (b.timer i).ctla := by
  rcases countDown_cases cfg i b with ⟨-, e⟩ | ⟨k, -, -, e⟩ | ⟨c, -, hk, e⟩ <;> rw [e]
  · simp [StepOut.quiet, Timer.decremented]
  · simp [Timer.zeroEvent]
  · have hi := eq_channelTimer_of_kind hk
    subst hi
    simp [timer_lfsrStep_self, Block.steppedTimer, Timer.zeroEvent]

/-! ## Clock tick and cascade pulse (rules R144, R145) -/

/-- Everything `tick_linked` can do: a count-down step, or nothing. -/
theorem tickLinked_cases (cfg : Config) (j : Fin 12) (b : Block) :
    (acceptsPulse cfg j b = true ∧ tickLinked cfg j b = countDown cfg j b) ∨
      (acceptsPulse cfg j b = false ∧ tickLinked cfg j b = StepOut.quiet b) := by
  cases h : acceptsPulse cfg j b <;> simp [tickLinked, h]

/-- Everything `tick` can answer with no fault: nothing (frozen), the idling, or a reschedule and a count-down step. -/
theorem clockTick_eq_ok {cfg : Config} {i : Fin 12} {t : Tick} {b : Block} {o : StepOut} (h : clockTick cfg i t b = .ok o) :
    (b.fastPath i = true ∧ cfg.fastpathTick = .frozen ∧ o = StepOut.quiet b) ∨
    (((b.timer i).cen = false ∨ (b.timer i).linked = true ∨ b.fastPath i = true) ∧
        o = StepOut.quiet (b.setTimer i ((b.timer i).ticked never))) ∨
    ((b.timer i).cen = true ∧ (b.timer i).linked = false ∧ b.fastPath i = false ∧
        ∃ n, reschedule cfg i (b.timer i).ctla t = .ok n ∧
          o = countDown cfg i (b.setTimer i ((b.timer i).ticked (some n)))) := by
  unfold clockTick at h
  split at h
  · rename_i hf
    simp only [Bool.and_eq_true, beq_iff_eq] at hf
    exact .inl ⟨hf.1, hf.2, (Except.ok.inj h).symm⟩
  · split at h
    · rename_i hi
      exact .inr (.inl ⟨by simpa [or_assoc] using hi, (Except.ok.inj h).symm⟩)
    · rename_i hi
      simp only [Bool.or_eq_true, Bool.not_eq_true', not_or, Bool.not_eq_true, Bool.not_eq_false] at hi
      split at h
      · cases h
      · rename_i n hn
        exact .inr (.inr ⟨hi.1.1, hi.1.2, hi.2, n, hn, (Except.ok.inj h).symm⟩)

/-- A clock tick of timer `i` touches what belongs to timer `i` alone. -/
theorem clockTick_onlyOwn {cfg : Config} {i : Fin 12} {t : Tick} {b : Block} {o : StepOut}
    (h : clockTick cfg i t b = .ok o) : Block.OnlyOwn i b o.block := by
  rcases clockTick_eq_ok h with ⟨-, -, rfl⟩ | ⟨-, rfl⟩ | ⟨-, -, -, n, -, rfl⟩
  · exact OnlyOwn.refl i b
  · exact setTimer_onlyOwn i b _
  · exact OnlyOwn.trans (setTimer_onlyOwn i b _) (countDown_onlyOwn cfg i _)

/-- A cascade pulse to timer `j` touches what belongs to timer `j` alone. -/
theorem tickLinked_onlyOwn (cfg : Config) (j : Fin 12) (b : Block) : Block.OnlyOwn j b (tickLinked cfg j b).block := by
  rcases tickLinked_cases cfg j b with ⟨-, e⟩ | ⟨-, e⟩
  · exact e ▸ countDown_onlyOwn cfg j b
  · exact e ▸ OnlyOwn.refl j b

/-! ## The sweep (rule R190) -/

/-- What every pulse keeps, a cascade keeps. -/
theorem cascade_induct {cfg : Config} (P : Sweep → Prop)
    (hp : ∀ j w, P w → P (w.absorb j (tickLinked cfg j w.block))) :
    ∀ fuel j w, P w → P (cascade cfg fuel j w)
  | 0, _, _, h => h
  | fuel + 1, j, w, h => by
    unfold cascade
    split
    · exact h
    · rename_i k _
      split
      · exact cascade_induct P hp fuel k _ (hp k w h)
      · exact hp k w h

/-- What every clock tick and every pulse keep, a turn of the loop keeps. -/
theorem sweepOne_induct {cfg : Config} {t : Tick} {i : Fin 12} {w w' : Sweep} (P : Sweep → Prop)
    (hc : ∀ i w o, P w → due (w.block.timer i).next t = true → clockTick cfg i t w.block = .ok o → P (w.absorb i o))
    (hp : ∀ j w, P w → P (w.absorb j (tickLinked cfg j w.block)))
    (h : sweepOne cfg t i w = .ok w') (hw : P w) : P w' := by
  unfold sweepOne at h
  split at h
  · rename_i hd
    split at h
    · cases h
    · rename_i o ho
      cases h
      have := hc i w o hw hd ho
      split
      · exact cascade_induct P hp 12 i _ this
      · exact this
  · cases h
    exact hw

/-- What every clock tick and every pulse keep, the sweep keeps. -/
theorem sweep_induct {cfg : Config} {t : Tick} (P : Sweep → Prop)
    (hc : ∀ i w o, P w → due (w.block.timer i).next t = true → clockTick cfg i t w.block = .ok o → P (w.absorb i o))
    (hp : ∀ j w, P w → P (w.absorb j (tickLinked cfg j w.block))) :
    ∀ is w w', sweep cfg t is w = .ok w' → P w → P w'
  | [], w, w', h, hw => by cases h; exact hw
  | i :: is, w, w', h, hw => by
    unfold sweep at h
    split at h
    · cases h
    · rename_i v hv
      exact sweep_induct P hc hp is v w' h (sweepOne_induct P hc hp hv hw)

/-- What TICKALL answers: the sweep's outcome, where the tick does not go back. -/
theorem tickAll_eq_ok {cfg : Config} {t : Tick} {b : Block} {w : Sweep} :
    tickAll cfg t b = .ok w ↔ b.now.toNat ≤ t.toNat ∧ sweep cfg t timerIds ⟨b.setNow t, 0, false⟩ = .ok w := by
  unfold tickAll
  split
  · simp; omega
  · simp; omega

/-- LINK is acyclic (rule R291): following it from any timer ends within ten links, so a cascade never runs out of fuel. -/
theorem link_acyclic (i : Fin 12) : (fun o : Option (Fin 12) => o.bind link)^[10] (some i) = none := by
  revert i; decide

end Sys2Proof.Machine
end

