-- ==== Sys2Proof/Laws/PerInstr.lean ====
section
/-! SUPPORT. The family TableRow: the word of an instruction, under its opcode-table row's mask, is the row's match (30_encoding.md
rule R111, spec/opcode_table.json). -/

namespace Sys2Proof.Laws.TableRow

/-- The row's mask. -/
def mask : Instr → Word
  | .peekBkup _ | .peekCtla _ | .peekCnt _ | .peekCtlb _ => 0x3E3
  | .pokeBkup _ _ | .pokeCtla _ _ | .pokeCnt _ _ | .pokeCtlb _ _ => 0x3E3
  | .peekAvol _ | .peekAfb _ | .peekAout _ | .peekAshift _ | .peekAbkup _ | .peekActla _ | .peekAcnt _ | .peekActlb _ => 0x3E7
  | .pokeAvol _ _ | .pokeAfb _ _ | .pokeAout _ _ | .pokeAshift _ _ => 0x3E7
  | .pokeAbkup _ _ | .pokeActla _ _ | .pokeAcnt _ _ | .pokeActlb _ _ => 0x3E7
  | .tickAll _ | .hsync | .vsync | .reset => 0x3FF
  | .trig _ => 0x3F0
  | .audioOut _ => 0x3C0

/-- The row's match. -/
def pattern : Instr → Word
  | .peekBkup _ => 0x000
  | .peekCtla _ => 0x001
  | .peekCnt _ => 0x002
  | .peekCtlb _ => 0x003
  | .peekAvol _ => 0x020
  | .peekAfb _ => 0x021
  | .peekAout _ => 0x022
  | .peekAshift _ => 0x023
  | .peekAbkup _ => 0x024
  | .peekActla _ => 0x025
  | .peekAcnt _ => 0x026
  | .peekActlb _ => 0x027
  | .pokeBkup _ _ => 0x040
  | .pokeCtla _ _ => 0x041
  | .pokeCnt _ _ => 0x042
  | .pokeCtlb _ _ => 0x043
  | .pokeAvol _ _ => 0x060
  | .pokeAfb _ _ => 0x061
  | .pokeAout _ _ => 0x062
  | .pokeAshift _ _ => 0x063
  | .pokeAbkup _ _ => 0x064
  | .pokeActla _ _ => 0x065
  | .pokeAcnt _ _ => 0x066
  | .pokeActlb _ _ => 0x067
  | .tickAll _ => 0x080
  | .hsync => 0x0C0
  | .vsync => 0x100
  | .trig _ => 0x140
  | .audioOut _ => 0x180
  | .reset => 0x1C0

/-- The encoded word matches its row. -/
def Statement (i : Instr) : Prop := encodeWord i &&& mask i = pattern i

theorem peekBkup (i : BitVec 3) : Statement (.peekBkup i) := by revert i; unfold Statement; decide
theorem peekCtla (i : BitVec 3) : Statement (.peekCtla i) := by revert i; unfold Statement; decide
theorem peekCnt (i : BitVec 3) : Statement (.peekCnt i) := by revert i; unfold Statement; decide
theorem peekCtlb (i : BitVec 3) : Statement (.peekCtlb i) := by revert i; unfold Statement; decide
theorem peekAvol (c : BitVec 2) : Statement (.peekAvol c) := by revert c; unfold Statement; decide
theorem peekAfb (c : BitVec 2) : Statement (.peekAfb c) := by revert c; unfold Statement; decide
theorem peekAout (c : BitVec 2) : Statement (.peekAout c) := by revert c; unfold Statement; decide
theorem peekAshift (c : BitVec 2) : Statement (.peekAshift c) := by revert c; unfold Statement; decide
theorem peekAbkup (c : BitVec 2) : Statement (.peekAbkup c) := by revert c; unfold Statement; decide
theorem peekActla (c : BitVec 2) : Statement (.peekActla c) := by revert c; unfold Statement; decide
theorem peekAcnt (c : BitVec 2) : Statement (.peekAcnt c) := by revert c; unfold Statement; decide
theorem peekActlb (c : BitVec 2) : Statement (.peekActlb c) := by revert c; unfold Statement; decide
theorem pokeBkup (i : BitVec 3) (v : Byte) : Statement (.pokeBkup i v) := by
  simp only [Statement, encodeWord, mask, pattern]; revert i; decide
theorem pokeCtla (i : BitVec 3) (v : Byte) : Statement (.pokeCtla i v) := by
  simp only [Statement, encodeWord, mask, pattern]; revert i; decide
theorem pokeCnt (i : BitVec 3) (v : Byte) : Statement (.pokeCnt i v) := by
  simp only [Statement, encodeWord, mask, pattern]; revert i; decide
theorem pokeCtlb (i : BitVec 3) (v : Byte) : Statement (.pokeCtlb i v) := by
  simp only [Statement, encodeWord, mask, pattern]; revert i; decide
theorem pokeAvol (c : BitVec 2) (v : Byte) : Statement (.pokeAvol c v) := by
  simp only [Statement, encodeWord, mask, pattern]; revert c; decide
theorem pokeAfb (c : BitVec 2) (v : Byte) : Statement (.pokeAfb c v) := by
  simp only [Statement, encodeWord, mask, pattern]; revert c; decide
theorem pokeAout (c : BitVec 2) (v : Byte) : Statement (.pokeAout c v) := by
  simp only [Statement, encodeWord, mask, pattern]; revert c; decide
theorem pokeAshift (c : BitVec 2) (v : Byte) : Statement (.pokeAshift c v) := by
  simp only [Statement, encodeWord, mask, pattern]; revert c; decide
theorem pokeAbkup (c : BitVec 2) (v : Byte) : Statement (.pokeAbkup c v) := by
  simp only [Statement, encodeWord, mask, pattern]; revert c; decide
theorem pokeActla (c : BitVec 2) (v : Byte) : Statement (.pokeActla c v) := by
  simp only [Statement, encodeWord, mask, pattern]; revert c; decide
theorem pokeAcnt (c : BitVec 2) (v : Byte) : Statement (.pokeAcnt c v) := by
  simp only [Statement, encodeWord, mask, pattern]; revert c; decide
theorem pokeActlb (c : BitVec 2) (v : Byte) : Statement (.pokeActlb c v) := by
  simp only [Statement, encodeWord, mask, pattern]; revert c; decide
theorem tickAll (t : Tick) : Statement (.tickAll t) := by
  simp only [Statement, encodeWord, mask, pattern]; decide
theorem hsync : Statement .hsync := by unfold Statement; decide
theorem vsync : Statement .vsync := by unfold Statement; decide
theorem trig (id : BitVec 4) : Statement (.trig id) := by revert id; unfold Statement; decide
theorem audioOut (n : BitVec 6) : Statement (.audioOut n) := by revert n; unfold Statement; decide
theorem reset : Statement .reset := by unfold Statement; decide

end Sys2Proof.Laws.TableRow
end

