-- ==== Sys2Proof/Tests/Slice0.lean ====
section
/-! SUPPORT. Tests: small facts with results taken from 95_test_vectors.md or from the encoding tables, and for every statement with
hypotheses a witness that meets them. All under the example configuration of 92_eei_decisions.md D28 unless a test says otherwise. -/

namespace Sys2Proof.Tests

open Sys2Proof Sys2Proof.Machine

/-! ## Helpers -/

/-- The machine after power-on under the example configuration. -/
def s0 : State := State.resetWith Config.exampleD28

def putT (s : State) (i : Fin 12) (T : Timer) : State := { s with block := s.block.setTimer i T }
def putA (s : State) (c : Fin 4) (A : AudioSettings) : State := { s with block := s.block.setSettings c A }
def putTrig (s : State) (k : Fin 8) : State := { s with block := s.block.setTrig k true }
def at' (s : State) (t : Tick) : State := { s with block := s.block.setNow t }
def under (s : State) (cfg : Config) : State := { s with cfg := cfg }

/-- A timer record from its backup, ControlA, count, ControlB and next. -/
def tm (backup ctla count ctlb : Byte) (next : TickInf) : Timer := ⟨backup, ctla, count, ctlb, next⟩

/-- Whether an outcome is a next state with a property. -/
def nextHas (o : Host.Outcome State Fault Refusal) (p : State → Bool) : Bool :=
  match o with
  | .next s => p s
  | _ => false

/-- Whether an outcome is a given fault. -/
def faultIs (o : Host.Outcome State Fault Refusal) (f : Fault) : Bool :=
  match o with
  | .fault g => g == f
  | _ => false

/-- Whether an instruction returns a given result and leaves the block as it was. -/
def returns (i : Instr) (s : State) (r : Result) : Bool := nextHas (exec i s) fun t => t.result == r && t.block == s.block

/-! ## Well-formedness and decoding -/

theorem test_trig_11_is_wellFormed : (Instr.trig 11).wellFormed = true := by decide
theorem test_trig_12_is_illFormed : (Instr.trig 12).wellFormed = false := by decide

/-- A word with no data beside it. -/
def bare (w : Word) : Transaction := ⟨w, 0, 0⟩

/-- A word with `D` beside it. -/
def withD (w : Word) (v : Byte) : Transaction := ⟨w, v, 0⟩

-- 30_encoding.md rule R111, op win iii kk, bit by bit
theorem test_decode_peek_base :
    decode (bare 0b0000_0_011_00) = .ok (.peekBkup 3) ∧ decode (bare 0b0000_0_011_01) = .ok (.peekCtla 3) ∧
    decode (bare 0b0000_0_101_10) = .ok (.peekCnt 5) ∧ decode (bare 0b0000_0_111_11) = .ok (.peekCtlb 7) := by decide

-- rule R111, op win cc kkk, bit by bit
theorem test_decode_peek_audio :
    decode (bare 0b0000_1_00_000) = .ok (.peekAvol 0) ∧ decode (bare 0b0000_1_01_001) = .ok (.peekAfb 1) ∧
    decode (bare 0b0000_1_10_010) = .ok (.peekAout 2) ∧ decode (bare 0b0000_1_11_011) = .ok (.peekAshift 3) ∧
    decode (bare 0b0000_1_00_100) = .ok (.peekAbkup 0) ∧ decode (bare 0b0000_1_00_101) = .ok (.peekActla 0) ∧
    decode (bare 0b0000_1_11_110) = .ok (.peekAcnt 3) ∧ decode (bare 0b0000_1_01_111) = .ok (.peekActlb 1) := by decide

theorem test_decode_poke_base :
    decode (withD 0b0001_0_000_00 0x10) = .ok (.pokeBkup 0 0x10) ∧ decode (withD 0b0001_0_001_01 0x0A) = .ok (.pokeCtla 1 0x0A) ∧
    decode (withD 0b0001_0_010_10 3) = .ok (.pokeCnt 2 3) ∧ decode (withD 0b0001_0_110_11 0xFF) = .ok (.pokeCtlb 6 0xFF) := by decide

theorem test_decode_poke_audio :
    decode (withD 0b0001_1_00_000 0xF6) = .ok (.pokeAvol 0 0xF6) ∧ decode (withD 0b0001_1_00_001 1) = .ok (.pokeAfb 0 1) ∧
    decode (withD 0b0001_1_01_010 0x80) = .ok (.pokeAout 1 0x80) ∧ decode (withD 0b0001_1_10_011 1) = .ok (.pokeAshift 2 1) ∧
    decode (withD 0b0001_1_01_100 0) = .ok (.pokeAbkup 1 0) ∧ decode (withD 0b0001_1_00_101 0x18) = .ok (.pokeActla 0 0x18) ∧
    decode (withD 0b0001_1_01_110 3) = .ok (.pokeAcnt 1 3) ∧ decode (withD 0b0001_1_11_111 0xA0) = .ok (.pokeActlb 3 0xA0) := by decide

theorem test_decode_orchestrator :
    decode ⟨0b0010_000000, 0, 16⟩ = .ok (.tickAll 16) ∧ decode (bare 0b0011_000000) = .ok .hsync ∧
    decode (bare 0b0100_000000) = .ok .vsync ∧ decode (bare 0b0101_00_1011) = .ok (.trig 11) ∧
    decode (bare 0b0110_111111) = .ok (.audioOut 63) ∧ decode (bare 0b0111_000000) = .ok .reset := by decide

-- V10 to V13
theorem test_decode_rejects :
    decode (bare 0x14C) = .error (.badTimerId 0x14C) ∧ decode (bare 0x14F) = .error (.badTimerId 0x14F) ∧
    decode (bare 0x150) = .error (.reservedOp 0x150) ∧ decode (bare 0x081) = .error (.reservedOp 0x081) ∧
    decode (bare 0x1C1) = .error (.reservedOp 0x1C1) ∧ decode (bare 0x200) = .error (.reservedOp 0x200) ∧
    decode (bare 0x3FF) = .error (.reservedOp 0x3FF) := by decide

-- rule R105 and V1 to V7
theorem test_addresses :
    Request.toInstr Config.exampleD28 (.peek 0xFD0D) = .ok (.peekCtla 3) ∧
    Request.toInstr Config.exampleD28 (.peek 0xFD1F) = .ok (.peekCtlb 7) ∧
    Request.toInstr Config.exampleD28 (.poke 0xFD20 5) = .ok (.pokeAvol 0 5) ∧
    Request.toInstr Config.exampleD28 (.peek 0xFD3B) = .ok (.peekAshift 3) ∧
    Request.toInstr Config.exampleD28 (.peek 0xFCFF) = .error (.badAddress 0xFCFF) ∧
    Request.toInstr Config.exampleD28 (.poke 0xFD40 5) = .error (.badAddress 0xFD40) := by decide

-- the opcode table's numbering: D in bits 23..16, T from bit 16
theorem test_table_words :
    decodeTableWord 16 0x041 = some (.pokeCtla 0 0) ∧ decodeTableWord 24 0x980041 = some (.pokeCtla 0 0x98) ∧
    decodeTableWord 80 0x100080 = some (.tickAll 16) ∧ decodeTableWord 16 0x14C = none := by decide

-- a row's word runs as the first instruction after power-on, under every configuration
theorem test_first_instruction_runs :
    nextHas (step (State.reset.withFetchWord 16 0x041)) (fun t => t.pending == []) = true ∧
    nextHas (step (State.reset.withFetchWord 16 0x080)) (fun t => t.result == .tickAll 0 false) = true ∧
    nextHas (step (State.reset.withFetchWord 16 0x001)) (fun t => t.pending == []) = true := by decide

/-! ## Peeks: V20 to V31 -/

theorem test_peekBkup : returns (.peekBkup 3) (putT s0 3 (tm 0x40 0 0 0 none)) (.byte 0x40) = true := by decide
theorem test_peekCtla : returns (.peekCtla 0) (putT s0 0 (tm 0 0x58 0 0 none)) (.byte 0x58) = true := by decide
theorem test_peekCtla_zero :
    returns (.peekCtla 0) (under (putT s0 0 (tm 0 0x58 0 0 none)) { Config.exampleD28 with ctlaBit6Read := .zero })
      (.byte 0x18) = true := by decide
theorem test_peekCnt : returns (.peekCnt 5) (putT s0 5 (tm 0 0 7 0 none)) (.byte 7) = true := by decide
theorem test_peekCtlb : returns (.peekCtlb 0) (putT s0 0 (tm 0 0 0 0x09 none)) (.byte 0x09) = true := by decide
theorem test_peekAvol : returns (.peekAvol 0) (putA s0 0 ⟨0xF0, 0, 0, 0⟩) (.byte 0xF0) = true := by decide
theorem test_peekAfb : returns (.peekAfb 1) (putA s0 1 ⟨0, 0xC1, 0, 0⟩) (.byte 0xC1) = true := by decide
theorem test_peekAout : returns (.peekAout 2) (putA s0 2 ⟨0, 0, 0, 127⟩) (.byte 0x7F) = true := by decide
theorem test_peekAshift : returns (.peekAshift 3) (putA s0 3 ⟨0, 0, 0x5C, 0⟩) (.byte 0x5C) = true := by decide
theorem test_peekAbkup : returns (.peekAbkup 0) (putT s0 8 (tm 0x33 0 0 0 none)) (.byte 0x33) = true := by decide
theorem test_peekActla : returns (.peekActla 0) (putT s0 8 (tm 0 0x98 0 0 none)) (.byte 0x98) = true := by decide
theorem test_peekAcnt : returns (.peekAcnt 3) (putT s0 11 (tm 0 0 200 0 none)) (.byte 0xC8) = true := by decide
theorem test_peekActlb : returns (.peekActlb 1) (putT s0 9 (tm 0 0 0 0xA9 none)) (.byte 0xA9) = true := by decide

/-! ## Pokes: V32 to V39e, V47 to V51 -/

theorem test_pokeBkup : nextHas (exec (.pokeBkup 0 0x10) s0) (fun t => t.block.timer 0 == tm 0x10 0 0 0 none) = true := by decide
theorem test_pokeCtla : nextHas (exec (.pokeCtla 1 0x0A) s0) (fun t => t.block.timer 1 == tm 0 0x0A 0 0 (some 64)) = true := by decide
theorem test_pokeCtla_acknowledges :
    nextHas (exec (.pokeCtla 0 0x48) (at' (putT s0 0 (tm 0 0 0 0x0B none)) 100))
      (fun t => t.block.timer 0 == tm 0 0x48 0 0x03 (some 116)) = true := by decide
theorem test_pokeCnt :
    nextHas (exec (.pokeCnt 2 3) (at' (putT s0 2 (tm 0 0x08 0 0 none)) 40))
      (fun t => t.block.timer 2 == tm 0 0x08 3 0 (some 56)) = true := by decide
theorem test_pokeCnt_zero :
    nextHas (exec (.pokeCnt 0 0) (at' (putT s0 0 (tm 0 0x08 5 0 (some 116))) 100))
      (fun t => t.block.timer 0 == tm 0 0x08 0 0 (some 116)) = true := by decide
theorem test_pokeCtlb :
    nextHas (exec (.pokeCtlb 0 0x00) (putTrig (putT s0 0 (tm 0 0 0 0x0B none)) 0))
      (fun t => t.block.timer 0 == tm 0 0 0 0 none && t.block.trigFlag 0) = true := by decide
theorem test_pokeAvol : nextHas (exec (.pokeAvol 0 0xF6) s0) (fun t => (t.block.settings 0).volume.toInt == -10) = true := by decide
theorem test_pokeAfb : nextHas (exec (.pokeAfb 0 0x01) s0) (fun t => t.block.disabled 0) = true := by decide
theorem test_pokeAout : nextHas (exec (.pokeAout 1 0x80) s0) (fun t => audioSample t.block 9 == 0xFF80) = true := by decide
theorem test_pokeAshift : nextHas (exec (.pokeAshift 0 0x01) s0) (fun t => t.block.lfsr 0 == 0x001) = true := by decide
theorem test_pokeAbkup :
    nextHas (exec (.pokeAbkup 1 0x00) (putA (putT s0 9 (tm 4 0 0 0 none)) 1 ⟨0, 1, 0, 0⟩)) (fun t => t.block.disabled 1) = true := by
  decide
theorem test_pokeActla : nextHas (exec (.pokeActla 0 0x18) s0) (fun t => (t.block.timer 8).next == some 16) = true := by decide
theorem test_pokeAcnt :
    nextHas (exec (.pokeAcnt 1 3) (at' (putT s0 9 (tm 0 0x08 0 0 none)) 40))
      (fun t => t.block.timer 9 == tm 0 0x08 3 0 (some 56)) = true := by decide
theorem test_pokeActlb :
    nextHas (exec (.pokeActlb 1 0xA0) (putA (putT s0 9 (tm 0 0 0 0x0B none)) 1 ⟨0, 0, 0x5C, 0⟩))
      (fun t => t.block.lfsr 1 == 0xA5C && !(t.block.timer 9).done) = true := by decide

/-! ## TICKALL: V60 and V66 -/

/-- The start of V60: timer 7 due at 16, timers 8 to 11 and 0 to 4 linked, every count 0. -/
def v60 : State :=
  putT (putT (putT (putT (putT (putT (putT (putT (putT (putT s0 7 (tm 0 0x18 0 0 (some 16))) 8 (tm 0 0x1F 0 0 none))
    9 (tm 0 0x1F 0 0 none)) 10 (tm 0 0x1F 0 0 none)) 11 (tm 0 0x1F 0 0 none)) 0 (tm 0 0x9F 0 0 none)) 1 (tm 0 0x9F 0 0 none))
    2 (tm 0 0x9F 0 0 none)) 3 (tm 0 0x9F 0 0 none)) 4 (tm 0 0x9F 0 0 none)

/-- The start of V66: both timers' reschedule is asked for at 2^64 - 30, and timer 1's passes the top. -/
def v66 : State :=
  at' (putT (putT s0 0 (tm 0 0x08 0 0 (some (BitVec.ofNat 64 (2 ^ 64 - 30))))) 1
    (tm 0 0x0E 0 0 (some (BitVec.ofNat 64 (2 ^ 64 - 30))))) (BitVec.ofNat 64 (2 ^ 64 - 40))

theorem test_tickAll_chain_of_ten :
    nextHas (exec (.tickAll 16) v60) (fun t => t.result == .tickAll 0x1F true && t.block.timer 7 == tm 0 0x18 0 0x09 (some 32) &&
      t.block.timer 4 == tm 0 0x9F 0 0x09 none && t.block.lfsr 3 == 0x001 &&
      t.block.trig.toList == [true, true, true, true, true, false, false, true]) = true := by decide

theorem test_tickAll_overflow :
    faultIs (exec (.tickAll (BitVec.ofNat 64 (2 ^ 64 - 30))) v66) (.tickOverflow 1 (BitVec.ofNat 64 (2 ^ 64 - 30))) = true := by
  decide

/-! ## Queries and RESET: V100 to V107, V110 -/

theorem test_hsync :
    nextHas (exec .hsync (putTrig s0 0)) (fun t => t.result == .flag true && !t.block.trigFlag 0 &&
      nextHas (exec .hsync t) (fun u => u.result == .flag false)) = true := by decide
theorem test_vsync :
    nextHas (exec .vsync (putTrig s0 2)) (fun t => t.result == .flag true &&
      nextHas (exec .hsync t) (fun u => u.result == .flag false)) = true := by decide
theorem test_trig : returns (.trig 1) (putT s0 1 (tm 0 0 0 0 (some 64))) (.tick (some 64)) = true := by decide
theorem test_trig_never : returns (.trig 0) s0 (.tick never) = true := by decide
theorem test_audioOut : returns (.audioOut 11) (putA s0 3 ⟨0, 0, 0, 0x80⟩) (.sample 0xFF80) = true := by decide
theorem test_audioOut_no_channel : returns (.audioOut 7) (putA s0 0 ⟨0, 0, 0, 100⟩) (.sample 0) = true := by decide
theorem test_reset : nextHas (exec .reset v60) (fun t => t == { s0 with result := .none }) = true := by decide

/-! ## Shared operations -/

-- section 4.3: the gates of a cascade pulse on timer 1
theorem test_gates :
    tickLinked { Config.exampleD28 with linkedGate := .none } 1 (Block.reset.setTimer 1 (tm 5 0x17 0 0 none)) =
      ⟨(Block.reset.setTimer 1 (tm 5 0x17 5 0x09 none)).setTrig 1 true, true, 0⟩ ∧
    (tickLinked Config.exampleD28 1 (Block.reset.setTimer 1 (tm 5 0x17 0 0 none))).zero = false ∧
    (tickLinked Config.exampleD28 1 (Block.reset.setTimer 1 (tm 5 0x0F 0 0x09 none))).zero = true ∧
    (tickLinked { Config.exampleD28 with linkedGate := .enableAndNotDone } 1
      (Block.reset.setTimer 1 (tm 5 0x0F 0 0x09 none))).zero = false ∧
    (tickLinked Config.exampleD28 6 (Block.reset.setTimer 6 (tm 5 0x18 0 0 none))).zero = false := by decide

-- V80 to V83
theorem test_taps :
    tapsOf Config.exampleD28 0xC1 true = 0xC81 ∧ tapsOf { Config.exampleD28 with ctla7TapPos := 11 } 0xC1 true = 0xC01 ∧
    tapsOf Config.exampleD28 0xFF true = 0xCBF ∧ tapsOf Config.exampleD28 0x3F false = 0x03F := by decide

-- V87 to V91
theorem test_outputs :
    outputAfter Config.exampleD28 true 10 120 false = 127 ∧ outputAfter Config.exampleD28 true 10 0x88 true = 0x80 ∧
    outputAfter Config.exampleD28 false 0x80 0 true = 127 ∧ outputAfter Config.exampleD28 true 0x80 0 true = 127 ∧
    outputAfter Config.exampleD28 false 0xFB 0 false = 0xFB := by decide

/-- Channel 0 as S2 stands before its step 14: LFSR 0xED0, output 72. -/
def s2step14 : Block :=
  (Block.reset.setTimer 8 (tm 0 0xB8 0 0xE9 none)).setSettings 0 ⟨50, 0xC1, 0xD0, 72⟩

/-- Channel 0 as S2 stands before its step 2: LFSR 0x4B8, output 50. -/
def s2step2 : Block :=
  (Block.reset.setTimer 8 (tm 0 0xB8 0 0x49 none)).setSettings 0 ⟨50, 0xC1, 0xB8, 50⟩

-- S2 steps 14 and 15: LFSR 0xDA0 with output 122, then 0xB40 with output 127 (saturated)
theorem test_lfsr_steps :
    (lfsrStep Config.exampleD28 0 s2step14).lfsr 0 = 0xDA0 ∧ ((lfsrStep Config.exampleD28 0 s2step14).settings 0).output = 122 ∧
    (lfsrStep Config.exampleD28 0 (lfsrStep Config.exampleD28 0 s2step14)).lfsr 0 = 0xB40 ∧
    ((lfsrStep Config.exampleD28 0 (lfsrStep Config.exampleD28 0 s2step14)).settings 0).output = 127 := by decide

-- rules R116, R117
theorem test_assembler :
    assemble Config.exampleD28 ["RESET ; start", "  POKE.AVOL 8, -10", "TICKALL 0x20 -> (m, t4)", "poke 0xFD05, 0x0A"] =
      .ok [.reset, .pokeAvol 0 0xF6, .tickAll 32, .pokeCtla 1 0x0A] := by decide
-- rule R117 with rule R116: a poke by address takes the values of the mnemonic it selects
theorem test_poke_by_address :
    assemble Config.exampleD28 ["poke 0xFD20, -10", "poke 0xFD3A, -128"] = .ok [.pokeAvol 0 0xF6, .pokeAout 3 0x80] ∧
    assemble Config.exampleD28 ["poke 0xFD20, -129"] = .error (.valueOutOfRange (-129)) ∧
    assemble Config.exampleD28 ["poke 0xFD21, -1"] = .error (.valueOutOfRange (-1)) := by decide
theorem test_assembler_refuses :
    assemble Config.exampleD28 ["PEEK.BKUP 8"] = .error (.idOutOfRange 8) ∧
    assemble Config.exampleD28 ["POKE.CNT 0, 256"] = .error (.valueOutOfRange 256) := by decide
theorem test_pseudo :
    assembleLine Config.exampleD28 ⟨"SEED", [9, 0xA5C], []⟩ = .ok [.pokeAshift 1 0x5C, .pokeActlb 1 0xA0] ∧
    assembleLine Config.exampleD28 ⟨"ACKDONE", [0, 0x98], []⟩ = .ok [.pokeCtla 0 0xD8] ∧
    assembleLine Config.exampleD28 ⟨"TAPS", [8, 0xC1, 0x98], []⟩ = .ok [.pokeAfb 0 0xC1, .pokeActla 0 0x98] := by decide

/-! ## Witnesses: for every statement with hypotheses, states and operands that meet them -/

theorem witness_EncodedInstructionsDecodeBack : (Instr.trig 11).wellFormed = true := by decide

theorem witness_DecodedInstructionsReencode :
    decode (withD 0x041 0x98) = .ok (.pokeCtla 0 0x98) ∧ (0x041 : Word).extractLsb' 6 4 = 1 ∧
    decode ⟨0x080, 0, 16⟩ = .ok (.tickAll 16) ∧ (0x080 : Word).extractLsb' 6 4 = 2 := by decide

theorem witness_ReservedWordsAreRejected :
    ReservedWord 0x200 ∧ ReservedWord 0x1FF ∧ ReservedWord 0x081 ∧ ReservedWord 0x150 ∧ ReservedWord 0x15C := by
  refine ⟨?_, ?_, ?_, ?_, ?_⟩ <;> unfold ReservedWord <;> decide

theorem witness_BadTimerWords :
    BadTimerWord 0x14C ∧ BadTimerWord 0x14F ∧ ¬ BadTimerWord 0x15C ∧ ¬ BadTimerWord 0x14B ∧ ¬ ReservedWord 0x14C ∧
    ¬ ReservedWord 0x1BF := by
  refine ⟨?_, ?_, ?_, ?_, ?_, ?_⟩ <;> simp only [ReservedWord, BadTimerWord] <;> decide

theorem witness_AddressesOutsideTheWindowsFault :
    (¬ InBaseWindow Config.exampleD28 0xFCFF ∧ ¬ InAudioWindow Config.exampleD28 0xFCFF) ∧
    (¬ InBaseWindow Config.exampleD28 0xFD40 ∧ ¬ InAudioWindow Config.exampleD28 0xFD40) ∧
    InBaseWindow Config.exampleD28 0xFD00 ∧ InBaseWindow Config.exampleD28 0xFD1F ∧
    InAudioWindow Config.exampleD28 0xFD20 ∧ InAudioWindow Config.exampleD28 0xFD3F ∧
    (s0.call (.peek 0xFD40)).pending = .peek 0xFD40 :: [] ∧ (s0.call (.poke 0xFCFF 1)).pending = .poke 0xFCFF 1 :: [] := by
  unfold InBaseWindow InAudioWindow; decide

theorem witness_StepRunsTheDecodedCall :
    s0.pending = [] ∧ (s0.call (.peek 0xFD01)).pending = .peek 0xFD01 :: [] ∧
    Request.toInstr s0.cfg (.peek 0xFD01) = .ok (.peekCtla 0) ∧
    (s0.call (.transaction (bare 0x200))).pending = .transaction (bare 0x200) :: [] ∧
    Request.toInstr s0.cfg (.transaction (bare 0x200)) = .error (.reservedOp 0x200) := by decide

theorem witness_FromResetNothingRuns : isPeek (.peekActlb 3) = true := by decide

theorem witness_BadConfigurationsAreRefused :
    Config.ofParams Config.exampleD28.toParams = some Config.exampleD28 ∧
    Config.ofParams { Config.exampleD28.toParams with baseTickUnit := 0 } = none ∧
    Config.ofParams { Config.exampleD28.toParams with audioBase := 0xFD1F } = none ∧
    Config.ofParams { Config.exampleD28.toParams with timerBase := 0xFFE1 } = none := by decide

theorem witness_StepsKeepConfigurationAndCalls :
    nextHas (step (s0.call (.peek 0xFD01))) (fun t => t.pending == [] && t.cfg == s0.cfg) = true := by decide

theorem witness_LinkTopology : link 7 = some 8 := by decide

theorem witness_BasePeeksReturnRegisters :
    s0.cfg.ctlaBit6Read = .asWritten ∧
    (under s0 { Config.exampleD28 with ctlaBit6Read := .zero }).cfg.ctlaBit6Read = .zero := by decide

theorem witness_AudioPeeksReturnRegisters :
    (under v60 { Config.exampleD28 with ctlaBit6Read := .zero }).cfg.ctlaBit6Read = .zero ∧ v60.cfg.ctlaBit6Read = .asWritten := by
  decide

theorem witness_ControlBPokesStoreAllBits :
    nextHas (exec (.pokeCtlb 0 0x08) (putT s0 0 (tm 0 0 0 0x09 none)))
      (fun t => (tm 0 0 0 0x09 none).bout && !(t.block.timer 0).bout) = true := by decide

-- V42 to V49: an idle byte, the highest tick that fits, the first that does not
theorem witness_ControlAPokesFollowSetControlA :
    ¬ Arming 0x0F ∧ ¬ Arming 0x10 ∧ Arming 0x08 ∧
    clockedAt Config.exampleD28 0x08 (BitVec.ofNat 64 (2 ^ 64 - 17)) < 2 ^ 64 ∧
    2 ^ 64 ≤ clockedAt Config.exampleD28 0x08 (BitVec.ofNat 64 (2 ^ 64 - 16)) := by
  unfold Arming clockedAt; decide

-- V50 to V53, and the same boundary
theorem witness_CountPokesFollowSetCount :
    ¬ (Arming 0x08 ∧ (0 : Byte) ≠ 0) ∧ ¬ (Arming 0x0F ∧ (5 : Byte) ≠ 0) ∧ Arming 0x08 ∧ (1 : Byte) ≠ 0 ∧
    clockedAt Config.exampleD28 0x08 (BitVec.ofNat 64 (2 ^ 64 - 17)) < 2 ^ 64 ∧
    2 ^ 64 ≤ clockedAt Config.exampleD28 0x08 (BitVec.ofNat 64 (2 ^ 64 - 16)) := by
  unfold Arming clockedAt; decide

theorem witness_PeeksAndPokesAreIdempotent :
    isPoke (.pokeCtla 0 0x48) = true ∧ nextHas (exec (.pokeCtla 0 0x48) v60) (fun _ => true) = true ∧
    isPeek (.peekCtla 0) = true ∧ nextHas (exec (.peekCtla 0) v60) (fun _ => true) = true := by decide

-- a timer idle before; one that the Count poke reschedules; one running whose Count poke of 0 does not, near the top of the tick
theorem witness_ArmStartsATimer :
    ArmFits s0 (baseTimer 0) 5 0x98 ∧ ArmFits v60 (audioTimer 3) 5 0x18 ∧ ArmFits v60 (baseTimer 7) 5 0x98 := by
  simp only [ArmFits, Arming, clockedAt]; decide
/-- Timer 8 running at period 6, too near the top of the tick for another such interval. -/
def nearTop : State := at' (putT s0 8 (tm 0 0x0E 0 0 none)) (BitVec.ofNat 64 (2 ^ 64 - 100))
theorem witness_ArmStartsATimer_noReschedule :
    ArmFits nearTop (audioTimer 0) 0 0x18 ∧ Arming (nearTop.block.timer 8).ctla ∧
    2 ^ 64 ≤ clockedAt nearTop.cfg (nearTop.block.timer 8).ctla nearTop.block.now := by
  simp only [ArmFits, Arming, clockedAt]; decide

/-- Channel 0 silenced by the fast path and due at 16 (V70). -/
def v70 : State := putA (putT s0 8 (tm 0 0x18 2 0x02 (some 16))) 0 ⟨0, 0x01, 0, 0⟩

theorem witness_ClockTickFollowsTheRule :
    (kind 8 = .audio 0 ∧ v70.block.disabled 0 = true ∧ Config.exampleD28.fastpathTick = .frozen) ∧
    ({ Config.exampleD28 with fastpathTick := .idle : Config }.fastpathTick ≠ .frozen) ∧
    ((v60.block.timer 7).cen = true ∧ (v60.block.timer 7).linked = false ∧ kind 7 = .base 7 ∧
      clockedAt Config.exampleD28 (v60.block.timer 7).ctla 16 < 2 ^ 64) ∧
    2 ^ 64 ≤ clockedAt Config.exampleD28 (v66.block.timer 1).ctla (BitVec.ofNat 64 (2 ^ 64 - 30)) ∧
    (v66.block.timer 1).cen = true ∧ (v66.block.timer 1).linked = false := by
  unfold clockedAt; decide

theorem witness_CascadePulseFollowsTheRule :
    (v60.block.timer 1).linked = true ∧ kind 1 = .base 1 ∧ (v60.block.timer 1).cen = true ∧ (v60.block.timer 7).linked = false := by
  decide

theorem witness_CountDownFollowsTheRule :
    (v60.block.timer 7).count = 0 ∧ 7 = baseOf 7 ∧ (v60.block.timer 11).count = 0 ∧ 11 = channelTimer 3 ∧
    (v70.block.timer 8).count ≠ 0 := by decide

theorem witness_LfsrStepShiftsInInvertedParity : 10 < 11 := by decide

-- integrate and normal mode, up and down
theorem witness_OutputFollowsTheRule :
    (s2step14.timer (channelTimer 0)).integ = true ∧ ((lfsrStep Config.exampleD28 0 s2step14).lfsr 0).getLsbD 0 = false ∧
    (s2step2.timer (channelTimer 0)).integ = true ∧ ((lfsrStep Config.exampleD28 0 s2step2).lfsr 0).getLsbD 0 = true := by decide
theorem witness_OutputFollowsTheRule_normal :
    (v60.block.timer (channelTimer 0)).integ = false ∧ ((lfsrStep Config.exampleD28 0 v60.block).lfsr 0).getLsbD 0 = true ∧
    ((Block.reset.setTimer 8 (tm 0 0x18 0 0 none)).timer (channelTimer 0)).integ = false ∧
    ((lfsrStep Config.exampleD28 0 ((Block.reset.setTimer 8 (tm 0 0x18 0 0 none)).setSettings 0 ⟨10, 3, 1, 0⟩)).lfsr 0).getLsbD 0 =
      false := by decide

theorem witness_TapMaskBits : 11 < 12 := by decide

theorem witness_ZeroEventComesOnStepCountPlusOne :
    0 ≤ (v70.block.timer 8).count.toNat ∧ 2 ≤ (v70.block.timer 8).count.toNat ∧ (v70.block.timer 8).count.toNat = 2 := by decide

theorem v60_inv : v60.Inv := inv_of_check (by decide)

theorem v66_inv : v66.Inv := inv_of_check (by decide)

theorem witness_TickAllIsSimultaneous : v60.Inv ∧ Block.TickSafe v60.cfg v60.block 16 :=
  ⟨v60_inv, by unfold Block.TickSafe; decide⟩

theorem witness_TickBelowNowFaults : (50 : Tick).toNat < (at' s0 100).block.now.toNat := by decide

theorem witness_FirstTickOverflowFaults :
    v66.Inv ∧ v66.block.now.toNat ≤ (BitVec.ofNat 64 (2 ^ 64 - 30)).toNat ∧
    v66.block.clocked (BitVec.ofNat 64 (2 ^ 64 - 30)) 1 = true ∧
    2 ^ 64 ≤ clockedAt v66.cfg (v66.block.timer 1).ctla (BitVec.ofNat 64 (2 ^ 64 - 30)) ∧
    (∀ j, j < 1 → v66.block.clocked (BitVec.ofNat 64 (2 ^ 64 - 30)) j = true →
      clockedAt v66.cfg (v66.block.timer j).ctla (BitVec.ofNat 64 (2 ^ 64 - 30)) < 2 ^ 64) := by
  refine ⟨v66_inv, ?_⟩
  unfold clockedAt; decide

theorem witness_TickAllWithNoTimerDue :
    v60.block.now.toNat ≤ (15 : Tick).toNat ∧ ∀ i n, (v60.block.timer i).next = some n → (15 : Tick).toNat < n.toNat := by
  refine ⟨by decide, fun i n h => ?_⟩
  have : ∀ i, (v60.block.timer i).next = none ∨ (v60.block.timer i).next = some 16 := by decide
  rcases this i with e | e <;> rw [e] at h <;> cases h
  decide

theorem witness_TickAllFrame : nextHas (exec (.tickAll 16) v60) (fun t => t.block.trigFlag 7) = true := by decide

theorem witness_MaskBitsComeWithZeroEvents :
    nextHas (exec (.tickAll 16) v60) (fun t => t.result == .tickAll 0x1F true) = true := by decide

theorem witness_EachTimerCountsAtMostOnce : v60.Inv ∧ nextHas (exec (.tickAll 16) v60) (fun _ => true) = true :=
  ⟨v60_inv, by decide⟩

theorem witness_ClockedTimerIsRescheduledFromTheTick :
    v60.Inv ∧ Block.TickSafe v60.cfg v60.block 16 ∧ v60.block.clocked 16 7 = true :=
  ⟨v60_inv, by unfold Block.TickSafe; decide, by decide⟩

theorem witness_FastPathIsSilent :
    v70.block.disabled 0 = true ∧ nextHas (exec (.tickAll 16) v70) (fun t => t.block.timer 8 == v70.block.timer 8) = true ∧
    nextHas (exec (.tickAll 16) (under v70 { Config.exampleD28 with fastpathTick := .idle }))
      (fun t => t.block.timer 8 == tm 0 0x18 2 0x00 never) = true ∧ due (v70.block.timer 8).next 16 = true := by decide

theorem witness_TrigReturnsTheNextTick : 12 ≤ (12 : BitVec 4).toNat ∧ faultIs (exec (.trig 12) s0) (.badTimerId 0x14C) = true := by
  decide

theorem witness_AudioOutReturnsTheSample : (7 : BitVec 6).toNat < 8 ∧ 11 < (12 : BitVec 6).toNat := by decide

theorem witness_EveryStepKeepsTheInvariant :
    (v60.call (.transaction ⟨0x080, 0, 16⟩)).Inv ∧
    nextHas (step (v60.call (.transaction ⟨0x080, 0, 16⟩))) (fun t => t.result == .tickAll 0x1F true) = true :=
  ⟨v60_inv, by decide⟩

theorem witness_ControlAChangesOnlyByItsPoke :
    nextHas (exec (.pokeCtla 7 0) v60) (fun t => (t.block.timer 7).ctla != (v60.block.timer 7).ctla) = true ∧
    nextHas (exec (.pokeActla 3 0) v60) (fun t => (t.block.timer 11).ctla != (v60.block.timer 11).ctla) = true ∧
    nextHas (exec .reset v60) (fun t => (t.block.timer 0).ctla != (v60.block.timer 0).ctla) = true := by decide

theorem witness_BackupChangesOnlyByItsPoke :
    nextHas (exec (.pokeBkup 7 1) v60) (fun t => (t.block.timer 7).backup != (v60.block.timer 7).backup) = true ∧
    nextHas (exec (.pokeAbkup 0 1) v60) (fun t => (t.block.timer 8).backup != (v60.block.timer 8).backup) = true := by decide

theorem witness_VolumeAndFeedbackChangeOnlyByTheirPokes :
    nextHas (exec (.pokeAvol 3 1) v60) (fun t => (t.block.settings 3).volume != (v60.block.settings 3).volume) = true ∧
    nextHas (exec (.pokeAfb 0 1) v60) (fun t => (t.block.settings 0).feedback != (v60.block.settings 0).feedback) = true := by decide

theorem witness_NowChangesOnlyByTickAllAndReset :
    nextHas (exec (.tickAll 16) v60) (fun t => t.block.now == 16) = true ∧
    nextHas (exec .reset (at' s0 100)) (fun t => t.block.now == 0) = true := by decide

theorem witness_TrigFlagsChangeOnlyAsStated :
    nextHas (exec (.tickAll 16) v60) (fun t => !v60.block.trigFlag 4 && t.block.trigFlag 4) = true ∧
    nextHas (exec .hsync (putTrig s0 0)) (fun t => !t.block.trigFlag 0) = true ∧
    nextHas (exec .vsync (putTrig s0 2)) (fun t => !t.block.trigFlag 2) = true ∧
    nextHas (exec .reset (putTrig s0 7)) (fun t => !t.block.trigFlag 7) = true := by decide

theorem witness_StatusBitsChangeOnlyAsStated :
    nextHas (exec (.pokeCtla 0 0x40) (putT s0 0 (tm 0 0 0 0x09 none))) (fun t => !(t.block.timer 0).done) = true ∧
    nextHas (exec (.pokeActlb 0 0x02) (putT s0 8 (tm 0 0 0 0x09 none)))
      (fun t => !(t.block.timer 8).done && !(t.block.timer 8).bout && (t.block.timer 8).bin) = true := by decide

theorem witness_CountsAndSamplesChangeOnlyAsStated :
    nextHas (exec (.pokeCnt 7 5) v60) (fun t => (t.block.timer 7).count != (v60.block.timer 7).count) = true ∧
    nextHas (exec (.pokeAout 0 5) v60) (fun t => (t.block.settings 0).output != (v60.block.settings 0).output) = true ∧
    nextHas (exec (.tickAll 16) v60) (fun t => (t.block.settings 3).shiftLo != (v60.block.settings 3).shiftLo) = true := by decide

end Sys2Proof.Tests
end

section
/-! Scope (00_scope.md section 4): building a configuration under rule R11, and the fixed links of rule R10. -/

namespace Sys2Proof.Proofs

open Sys2Proof Sys2Proof.Machine

theorem ofParams_eq_none_iff (p : Params) : Config.ofParams p = none ↔ ¬ p.Valid := by
  simp [Config.ofParams]

theorem ofParams_toParams (cfg : Config) : Config.ofParams cfg.toParams = some cfg :=
  dif_pos cfg.valid

theorem ofParams_eq_some_iff (p : Params) (cfg : Config) : Config.ofParams p = some cfg ↔ cfg.toParams = p := by
  constructor
  · intro h
    by_cases hv : p.Valid
    · rw [Config.ofParams, dif_pos hv, Option.some.injEq] at h
      rw [← h]
    · rw [(ofParams_eq_none_iff p).mpr hv] at h
      contradiction
  · rintro rfl
    exact ofParams_toParams cfg

/-- Settles O13: the check of rule R11 is the condition `ofParams` tests, and what it builds carries its own parameters. -/
theorem badConfigurationsAreRefused : Obligations.BadConfigurationsAreRefused := fun p =>
  ⟨ofParams_eq_none_iff p, fun cfg => (ofParams_eq_some_iff p cfg).mp⟩

/-- `predecessor` inverts `link`, so a successor determines the timer that pulses it. -/
theorem predecessor_of_link {i k : Fin 12} (h : link i = some k) : predecessor k = some i := by
  revert i k
  decide

/-- Settles O15: the links are the table of rule R10, and two timers with one successor are both its `predecessor`. -/
theorem linkTopology : Obligations.LinkTopology := by
  refine ⟨by decide, fun i j k hi hj => ?_⟩
  have hsame : some i = some j := (predecessor_of_link hi).symm.trans (predecessor_of_link hj)
  exact Option.some.inj hsame

end Sys2Proof.Proofs
end

section
/-! What one step and one completed instruction can do to the state (10_state.md sections 1 to 5): the inversion lemmas from
which every statement about what changes a field is derived. -/

namespace Sys2Proof.Proofs

open Sys2Proof Sys2Proof.Machine

/-! ## One step -/

theorem step_of_idle {s : State} (h : s.pending = []) : step s = .next s := by
  simp [step, h]

theorem step_of_decoded {s : State} {r : Request} {rest : List Request} {i : Instr} (h : s.pending = r :: rest)
    (hi : r.toInstr s.cfg = .ok i) : step s = exec i (s.afterFetch rest) := by
  simp [step, h, State.decodeCall, hi]

theorem step_of_rejected {s : State} {r : Request} {rest : List Request} {e : Reject} (h : s.pending = r :: rest)
    (he : r.toInstr s.cfg = .error e) : step s = .fault (Fault.ofReject e) := by
  simp [step, h, State.decodeCall, he, raiseFault]

/-- A step that completes was idle, or completed the instruction of the next call. -/
theorem step_eq_next {s s' : State} (h : step s = .next s') :
    (s.pending = [] ∧ s' = s) ∨
      ∃ r rest i, s.pending = r :: rest ∧ r.toInstr s.cfg = .ok i ∧ exec i (s.afterFetch rest) = .next s' := by
  cases hp : s.pending with
  | nil =>
    rw [step_of_idle hp] at h
    exact .inl ⟨rfl, (Host.Outcome.next.inj h).symm⟩
  | cons r rest =>
    cases hr : r.toInstr s.cfg with
    | error e =>
      rw [step_of_rejected hp hr] at h
      contradiction
    | ok i => exact .inr ⟨r, rest, i, rfl, hr, step_of_decoded hp hr ▸ h⟩

/-! ## One instruction -/

/-- `ins` is the poke, `base` of a base timer or `audio` of an audio timer, that writes the byte `v` to a register of timer `i`. -/
inductive PokesTimer (base : BitVec 3 → Byte → Instr) (audio : BitVec 2 → Byte → Instr) : Instr → Fin 12 → Byte → Prop
  | base (k : BitVec 3) (v : Byte) : PokesTimer base audio (base k v) (baseTimer k) v
  | audio (c : BitVec 2) (v : Byte) : PokesTimer base audio (audio c v) (audioTimer c) v

/-- The Backup pokes (rules R232, R240). -/
abbrev PokesBackup := PokesTimer .pokeBkup .pokeAbkup

/-- The ControlA pokes (rules R233, R241). -/
abbrev PokesControlA := PokesTimer .pokeCtla .pokeActla

/-- The Count pokes (rules R234, R242). -/
abbrev PokesCount := PokesTimer .pokeCnt .pokeAcnt

/-- The ControlB pokes (rules R235, R243). -/
abbrev PokesControlB := PokesTimer .pokeCtlb .pokeActlb

section
variable {base : BitVec 3 → Byte → Instr} {audio : BitVec 2 → Byte → Instr} {ins : Instr} {i : Fin 12} {v : Byte}

theorem PokesTimer.exists_operands (h : PokesTimer base audio ins i v) :
    (∃ k v, ins = base k v ∧ i = baseTimer k) ∨ (∃ c v, ins = audio c v ∧ i = audioTimer c) := by
  cases h with
  | base k v => exact .inl ⟨k, v, rfl, rfl⟩
  | audio c v => exact .inr ⟨c, v, rfl, rfl⟩

theorem PokesTimer.exists_operands_of (h : PokesTimer base audio ins i v) {P : Byte → Prop} (hv : P v) :
    (∃ k v, ins = base k v ∧ i = baseTimer k ∧ P v) ∨ (∃ c v, ins = audio c v ∧ i = audioTimer c ∧ P v) := by
  cases h with
  | base k v => exact .inl ⟨k, v, rfl, rfl, hv⟩
  | audio c v => exact .inr ⟨c, v, rfl, rfl, hv⟩

end

/-- What an instruction that completes can do to the block `b`: the blocks it may leave behind. The effect of the peeks and of
the two queries TRIG and AUDIOOUT is `unchanged`, which is open to every instruction: it writes no field. -/
inductive Effect (cfg : Config) (b : Block) : Instr → Block → Prop
  | unchanged {ins : Instr} : Effect cfg b ins b
  | backup {ins : Instr} {i : Fin 12} {v : Byte} (h : PokesBackup ins i v) : Effect cfg b ins (storeBackup i v b)
  | controlA {ins : Instr} {i : Fin 12} {v : Byte} {b' : Block} (h : PokesControlA ins i v)
      (hb : setControlA cfg i v b = .ok b') : Effect cfg b ins b'
  | count {ins : Instr} {i : Fin 12} {v : Byte} {b' : Block} (h : PokesCount ins i v)
      (hb : setCount cfg i v b = .ok b') : Effect cfg b ins b'
  | controlB {ins : Instr} {i : Fin 12} {v : Byte} (h : PokesControlB ins i v) : Effect cfg b ins (storeControlB i v b)
  | volume (c : BitVec 2) (v : Byte) :
      Effect cfg b (.pokeAvol c v) (b.setSettings (channel c) { b.settings (channel c) with volume := v })
  | feedback (c : BitVec 2) (v : Byte) :
      Effect cfg b (.pokeAfb c v) (b.setSettings (channel c) { b.settings (channel c) with feedback := v })
  | output (c : BitVec 2) (v : Byte) :
      Effect cfg b (.pokeAout c v) (b.setSettings (channel c) { b.settings (channel c) with output := v })
  | shiftLo (c : BitVec 2) (v : Byte) :
      Effect cfg b (.pokeAshift c v) (b.setSettings (channel c) { b.settings (channel c) with shiftLo := v })
  | tickAll {t : Tick} {w : Sweep} (h : tickAll cfg t b = .ok w) : Effect cfg b (.tickAll t) w.block
  | hsync : Effect cfg b .hsync (b.setTrig 0 false)
  | vsync : Effect cfg b .vsync (b.setTrig 2 false)
  | reset : Effect cfg b .reset Block.reset

theorem effect_of_finish {ins : Instr} {s s' : State} {b : Block} {r : Result} (h : s.finish b r = .next s')
    (he : Effect s.cfg s.block ins b) : s.SameOutside s' ∧ Effect s.cfg s.block ins s'.block := by
  obtain rfl := (finish_eq_next b s).1 h
  exact ⟨⟨rfl, rfl⟩, he⟩

theorem effect_of_finishPoke {ins : Instr} {s s' : State} {r : Except Fault Block} (h : s.finishPoke r = .next s')
    (he : ∀ b, r = .ok b → Effect s.cfg s.block ins b) : s.SameOutside s' ∧ Effect s.cfg s.block ins s'.block := by
  obtain ⟨b, hb, rfl⟩ := (finishPoke_eq_next s).1 h
  exact ⟨⟨rfl, rfl⟩, he b hb⟩

theorem execTickAll_eq_next {t : Tick} {s s' : State} :
    execTickAll t s = .next s' ↔
      ∃ w, tickAll s.cfg t s.block = .ok w ∧ s' = { s with block := w.block, result := .tickAll w.mask w.timer4 } := by
  unfold execTickAll
  cases tickAll s.cfg t s.block <;> simp [raiseFault, finish_eq_next]

theorem execTrig_eq_next {id : BitVec 4} {s s' : State} :
    execTrig id s = .next s' ↔
      ∃ h : id.toNat < 12, s' = { s with result := .tick (s.block.timer ⟨id.toNat, h⟩).next } := by
  unfold execTrig
  split <;> simp_all [raiseFault, finish_eq_next]

/-- Every instruction that completes leaves the configuration and the calls to come alone, and has one of the effects. -/
theorem exec_eq_next {ins : Instr} {s s' : State} (h : exec ins s = .next s') :
    s.SameOutside s' ∧ Effect s.cfg s.block ins s'.block := by
  cases ins with
  | peekBkup _ | peekCtla _ | peekCnt _ | peekCtlb _ | peekAvol _ | peekAfb _ | peekAout _ | peekAshift _ | peekAbkup _
  | peekActla _ | peekAcnt _ | peekActlb _ | audioOut _ => exact effect_of_finish h .unchanged
  | pokeBkup i v => exact effect_of_finish h (.backup (.base i v))
  | pokeAbkup c v => exact effect_of_finish h (.backup (.audio c v))
  | pokeCtla i v => exact effect_of_finishPoke h fun _ => .controlA (.base i v)
  | pokeActla c v => exact effect_of_finishPoke h fun _ => .controlA (.audio c v)
  | pokeCnt i v => exact effect_of_finishPoke h fun _ => .count (.base i v)
  | pokeAcnt c v => exact effect_of_finishPoke h fun _ => .count (.audio c v)
  | pokeCtlb i v => exact effect_of_finish h (.controlB (.base i v))
  | pokeActlb c v => exact effect_of_finish h (.controlB (.audio c v))
  | pokeAvol c v => exact effect_of_finish h (.volume c v)
  | pokeAfb c v => exact effect_of_finish h (.feedback c v)
  | pokeAout c v => exact effect_of_finish h (.output c v)
  | pokeAshift c v => exact effect_of_finish h (.shiftLo c v)
  | tickAll t =>
    obtain ⟨w, hw, rfl⟩ := execTickAll_eq_next.1 h
    exact ⟨⟨rfl, rfl⟩, .tickAll hw⟩
  | hsync => exact effect_of_finish h .hsync
  | vsync => exact effect_of_finish h .vsync
  | trig id =>
    obtain ⟨-, rfl⟩ := execTrig_eq_next.1 h
    exact ⟨⟨rfl, rfl⟩, .unchanged⟩
  | reset => exact effect_of_finish h .reset

/-! ## The statements about a step -/

/-- Settles O9: the three branches of `step`. -/
theorem stepRunsTheDecodedCall : Obligations.StepRunsTheDecodedCall := fun _ =>
  ⟨step_of_idle, fun _ _ _ => step_of_decoded, fun _ _ _ => step_of_rejected⟩

/-- Settles O14: an instruction leaves both fields alone, so only the fetch changes the list of calls. -/
theorem stepsKeepConfigurationAndCalls : Obligations.StepsKeepConfigurationAndCalls := by
  intro s s' h
  obtain ⟨hp, rfl⟩ | ⟨r, rest, i, hp, -, hx⟩ := step_eq_next h
  · simp [hp]
  · obtain ⟨⟨hcfg, hpend⟩, -⟩ := exec_eq_next hx
    simp [hcfg, hpend, hp, State.afterFetch]

/-- Settles O10: the fields of the reset block. -/
theorem powerOnValues : Obligations.PowerOnValues := by
  refine ⟨timer_reset, settings_reset, trigFlag_reset, rfl, fun c => ?_⟩
  simp [State.reset, State.resetWith, Block.disabled, AudioSettings.reset]

end Sys2Proof.Proofs
end

section
/-! The invariant of 10_state.md rule R57: what gives it to a timer record, and that the clock, the cascade and every
instruction keep it. -/

namespace Sys2Proof.Proofs

open Sys2Proof Sys2Proof.Machine

/-! ## One record -/

section
variable {cfg : Config} {now t : Tick} {T T' : Timer}

theorem inv_of_next_eq_never (h : T.next = never) : Timer.Inv cfg now T := by
  simp [Timer.Inv, h]

/-- A record with the same ControlA keeps the invariant where `next` is kept or becomes NEVER. -/
theorem timerInv_of_next (h : Timer.Inv cfg now T) (hctla : T'.ctla = T.ctla) (hnext : T'.next = T.next ∨ T'.next = never) :
    Timer.Inv cfg now T' := by
  rcases hnext with hnext | hnext
  · simpa only [Timer.Inv, Timer.linked, Timer.cen, hctla, hnext] using h
  · exact inv_of_next_eq_never hnext

/-- Time going on keeps the invariant: the bound of a finite `next` only grows. -/
theorem timerInv_mono (h : Timer.Inv cfg now T) (ht : now.toNat ≤ t.toNat) : Timer.Inv cfg t T := by
  obtain ⟨hlinked, hcen, hnext⟩ := h
  refine ⟨hlinked, hcen, fun n hn => ?_⟩
  have := hnext n hn
  omega

theorem arms_eq_true {a : Byte} : arms a = true ↔ cenOf a = true ∧ linkedOf a = false := by
  simp [arms]

/-- Period codes 0 to 6 give at most 64 base ticks (rules R45, R47). -/
theorem clockTicks_le {a : Byte} (h : linkedOf a = false) : clockTicks cfg a ≤ 64 * cfg.baseTickUnit := by
  have h7 : periodOf a ≠ 7#3 := by simpa [linkedOf] using h
  have hle : (periodOf a).toNat ≤ 6 := by bv_omega
  calc clockTicks cfg a ≤ cfg.baseTickUnit * 2 ^ 6 := Nat.mul_le_mul_left _ (Nat.pow_le_pow_right (by decide) hle)
    _ = 64 * cfg.baseTickUnit := Nat.mul_comm _ _

/-- A timer that counts by the clock has the invariant once it is rescheduled from the current tick. -/
theorem inv_of_reschedule {i : Fin 12} {n : Tick} (ha : arms T.ctla = true) (hr : reschedule cfg i T.ctla now = .ok n)
    (hn : T.next = some n) : Timer.Inv cfg now T := by
  obtain ⟨hcen, hlinked⟩ := arms_eq_true.1 ha
  obtain ⟨hlt, rfl⟩ := (reschedule_eq_ok i).1 hr
  refine ⟨fun h => ?_, fun h => ?_, fun m hm => ?_⟩
  · exact absurd h (by simp [Timer.linked, hlinked])
  · exact absurd h (by simp [Timer.cen, hcen])
  · obtain rfl := Option.some.inj (hn.symm.trans hm)
    rw [BitVec.toNat_ofNat, Nat.mod_eq_of_lt hlt]
    exact Nat.add_le_add_left (clockTicks_le hlinked) _

end

/-! ## All records of a block -/

/-- Rule R57 for every timer of a block, at a tick given apart. -/
def TimersInv (cfg : Config) (now : Tick) (b : Block) : Prop := ∀ i, Timer.Inv cfg now (b.timer i)

section
variable {cfg : Config} {now t : Tick} {b b' : Block} {i : Fin 12}

/-- An operation that touches what belongs to timer `i` alone has only that record to answer for. -/
theorem TimersInv.of_onlyOwn (h : TimersInv cfg now b) (hown : Block.OnlyOwn i b b')
    (hi : Timer.Inv cfg now (b'.timer i)) : TimersInv cfg now b' := by
  intro j
  obtain ⟨htimer, -, -, -⟩ := hown
  rcases eq_or_ne j i with rfl | hj
  · exact hi
  · exact htimer j hj ▸ h j

theorem TimersInv.setTimer (h : TimersInv cfg now b) {T : Timer} (hT : Timer.Inv cfg now T) :
    TimersInv cfg now (b.setTimer i T) :=
  h.of_onlyOwn (setTimer_onlyOwn i b T) (by simpa using hT)

/-- A count-down step keeps the timer's `next`, or idles it. -/
theorem next_countDown_self (cfg : Config) (i : Fin 12) (b : Block) :
    ((countDown cfg i b).block.timer i).next = (b.timer i).next ∨ ((countDown cfg i b).block.timer i).next = never := by
  have hzero : (b.timer i).zeroEvent.next = (b.timer i).next ∨ (b.timer i).zeroEvent.next = never := by
    unfold Timer.zeroEvent
    cases (b.timer i).reload <;> simp
  rcases countDown_cases cfg i b with ⟨-, e⟩ | ⟨k, -, -, e⟩ | ⟨c, -, hk, e⟩ <;> rw [e]
  · simp [StepOut.quiet, Timer.decremented]
  · simpa using hzero
  · obtain rfl := eq_channelTimer_of_kind hk
    simpa [timer_lfsrStep_self, Block.steppedTimer] using hzero

theorem TimersInv.countDown (h : TimersInv cfg now b) : TimersInv cfg now (countDown cfg i b).block :=
  h.of_onlyOwn (countDown_onlyOwn cfg i b)
    (timerInv_of_next (h i) (timer_countDown_self cfg i b).2 (next_countDown_self cfg i b))

theorem TimersInv.tickLinked (h : TimersInv cfg now b) : TimersInv cfg now (tickLinked cfg i b).block := by
  rcases tickLinked_cases cfg i b with ⟨-, e⟩ | ⟨-, e⟩ <;> rw [e]
  · exact h.countDown
  · exact h

theorem TimersInv.clockTick (h : TimersInv cfg t b) {o : StepOut} (ho : clockTick cfg i t b = .ok o) :
    TimersInv cfg t o.block := by
  rcases clockTick_eq_ok ho with ⟨-, -, rfl⟩ | ⟨-, rfl⟩ | ⟨hcen, hlinked, -, n, hn, rfl⟩
  · exact h
  · exact h.setTimer (inv_of_next_eq_never rfl)
  · have harms : arms (b.timer i).ctla = true := arms_eq_true.2 ⟨hcen, hlinked⟩
    have hticked : Timer.Inv cfg t ((b.timer i).ticked (some n)) := inv_of_reschedule harms hn rfl
    exact (h.setTimer hticked).countDown

theorem TimersInv.tickAll (h : TimersInv cfg b.now b) {w : Sweep} (hw : tickAll cfg t b = .ok w) :
    TimersInv cfg t w.block := by
  obtain ⟨ht, hsweep⟩ := tickAll_eq_ok.1 hw
  exact sweep_induct (fun w => TimersInv cfg t w.block) (fun _ _ _ hv _ ho => hv.clockTick ho)
    (fun _ _ hv => hv.tickLinked) timerIds _ w hsweep fun i => timerInv_mono (h i) ht

theorem TimersInv.setControlA (h : TimersInv cfg b.now b) {v : Byte} (hb : setControlA cfg i v b = .ok b') :
    TimersInv cfg b'.now b' := by
  obtain ⟨next, rfl, ⟨harms, n, hn, rfl⟩ | ⟨-, rfl⟩⟩ := setControlA_eq_ok.1 hb
  · exact h.setTimer (inv_of_reschedule harms hn rfl)
  · exact h.setTimer (inv_of_next_eq_never rfl)

theorem TimersInv.setCount (h : TimersInv cfg b.now b) {v : Byte} (hb : setCount cfg i v b = .ok b') :
    TimersInv cfg b'.now b' := by
  obtain ⟨next, rfl, ⟨harms, n, hn, rfl⟩ | ⟨-, rfl⟩⟩ := setCount_eq_ok.1 hb
  · rw [Bool.and_eq_true] at harms
    exact h.setTimer (inv_of_reschedule harms.1 hn rfl)
  · exact h.setTimer (timerInv_of_next (h i) rfl (.inl rfl))

theorem timersInv_reset : TimersInv cfg now Block.reset := fun i =>
  inv_of_next_eq_never (by rw [timer_reset]; rfl)

end

/-! ## The machine -/

section
variable {cfg : Config} {b b' : Block} {ins : Instr}

theorem now_tickAll {t : Tick} {w : Sweep} (h : tickAll cfg t b = .ok w) : w.block.now = t := by
  obtain ⟨-, hsweep⟩ := tickAll_eq_ok.1 h
  refine sweep_induct (fun w => w.block.now = t) (fun i w o hv _ ho => ?_) (fun j w hv => ?_) timerIds _ w hsweep rfl
  · obtain ⟨-, -, -, hnow⟩ := clockTick_onlyOwn ho
    exact hnow.trans hv
  · obtain ⟨-, -, -, hnow⟩ := tickLinked_onlyOwn cfg j w.block
    exact hnow.trans hv

theorem Effect.timersInv (e : Effect cfg b ins b') (h : TimersInv cfg b.now b) : TimersInv cfg b'.now b' := by
  cases e with
  | unchanged | volume c v | feedback c v | output c v | shiftLo c v | hsync | vsync => exact h
  | backup | controlB => exact h.setTimer (timerInv_of_next (h _) rfl (.inl rfl))
  | controlA _ hb => exact h.setControlA hb
  | count _ hb => exact h.setCount hb
  | tickAll hw => exact now_tickAll hw ▸ h.tickAll hw
  | reset => exact timersInv_reset

end

/-- Settles O47: the idle step keeps the state, and every effect of an instruction keeps the invariant. -/
theorem everyStepKeepsTheInvariant : Obligations.EveryStepKeepsTheInvariant := by
  intro s s' hinv h
  obtain ⟨-, rfl⟩ | ⟨r, rest, i, -, -, hx⟩ := step_eq_next h
  · exact hinv
  · obtain ⟨⟨hcfg, -⟩, he⟩ := exec_eq_next hx
    intro i
    rw [hcfg]
    exact he.timersInv hinv i

/-- Settles O48: after power-on every `next` is NEVER. -/
theorem powerOnMeetsTheInvariant : Obligations.PowerOnMeetsTheInvariant :=
  ⟨timersInv_reset, fun _ => timersInv_reset⟩

end Sys2Proof.Proofs
end

section
/-! Which operations change a register, a status bit, a sticky flag or the current tick (10_state.md sections 2, 3 and 5): what
TICKALL never changes, then what can happen to one record and to one channel's settings. -/

namespace Sys2Proof.Proofs

open Sys2Proof Sys2Proof.Machine

/-! ## The frame of TICKALL -/

/-- What TICKALL keeps of a timer record: Backup and ControlA, DONE and BOUT where set, BIN where clear. -/
structure TimerTicked (T T' : Timer) : Prop where
  backup : T'.backup = T.backup
  ctla : T'.ctla = T.ctla
  done : T.done = true → T'.done = true
  bout : T.bout = true → T'.bout = true
  bin : T.bin = false → T'.bin = false

section
variable {T T' T'' : Timer}

theorem TimerTicked.refl (T : Timer) : TimerTicked T T := ⟨rfl, rfl, id, id, id⟩

theorem TimerTicked.trans (h : TimerTicked T T') (g : TimerTicked T' T'') : TimerTicked T T'' :=
  ⟨g.backup.trans h.backup, g.ctla.trans h.ctla, g.done ∘ h.done, g.bout ∘ h.bout, g.bin ∘ h.bin⟩

theorem timerTicked_ticked (T : Timer) (next : TickInf) : TimerTicked T (T.ticked next) := by
  constructor <;> simp +contextual [Timer.ticked, clearBin, Timer.done, Timer.bout, Timer.bin]

theorem timerTicked_decremented (T : Timer) : TimerTicked T T.decremented := ⟨rfl, rfl, id, id, id⟩

theorem timerTicked_zeroEvent (T : Timer) : TimerTicked T T.zeroEvent := by
  constructor <;> simp +contextual [Timer.zeroEvent, setDoneBout, Timer.done, Timer.bout, Timer.bin]

/-- The LFSR step writes the top nibble of ControlB only (rule R174), so no status bit. -/
theorem getLsbD_withLfsrNibble (ctlb : Byte) (lfsr : U12) {k : Nat} (hk : k < 4) :
    (withLfsrNibble ctlb lfsr).getLsbD k = ctlb.getLsbD k :=
  BitVec.getLsbD_append.trans (by simp [hk])

theorem timerTicked_steppedTimer (cfg : Config) (b : Block) (c : Fin 4) :
    TimerTicked (b.timer (channelTimer c)) (Block.steppedTimer cfg b c) := by
  have hbit : ∀ k < 4, (Block.steppedTimer cfg b c).ctlb.getLsbD k = (b.timer (channelTimer c)).ctlb.getLsbD k :=
    fun _ hk => getLsbD_withLfsrNibble _ _ hk
  exact ⟨rfl, rfl, (hbit 3 (by decide)).trans, (hbit 0 (by decide)).trans, (hbit 1 (by decide)).trans⟩

end

/-- What TICKALL keeps of a block once `now` is the tick: of every record what `TimerTicked` says, Volume and Feedback, the
sticky flags that are set. -/
structure BlockTicked (b b' : Block) : Prop where
  timer : ∀ i, TimerTicked (b.timer i) (b'.timer i)
  volume : ∀ c, (b'.settings c).volume = (b.settings c).volume
  feedback : ∀ c, (b'.settings c).feedback = (b.settings c).feedback
  trig : ∀ k, b.trigFlag k = true → b'.trigFlag k = true

section
variable {cfg : Config} {b b' b'' : Block} {i : Fin 12} {c : Fin 4} {t : Tick}

theorem BlockTicked.refl (b : Block) : BlockTicked b b :=
  ⟨fun _ => .refl _, fun _ => rfl, fun _ => rfl, fun _ => id⟩

theorem BlockTicked.trans (h : BlockTicked b b') (g : BlockTicked b' b'') : BlockTicked b b'' :=
  ⟨fun i => (h.timer i).trans (g.timer i), fun c => (g.volume c).trans (h.volume c),
    fun c => (g.feedback c).trans (h.feedback c), fun k => g.trig k ∘ h.trig k⟩

theorem blockTicked_setTimer {T : Timer} (h : TimerTicked (b.timer i) T) : BlockTicked b (b.setTimer i T) := by
  refine ⟨fun j => ?_, fun _ => rfl, fun _ => rfl, fun _ => id⟩
  rcases eq_or_ne j i with rfl | hj
  · simpa using h
  · simpa [hj] using TimerTicked.refl _

theorem blockTicked_setSettings {A : AudioSettings} (hv : A.volume = (b.settings c).volume)
    (hf : A.feedback = (b.settings c).feedback) : BlockTicked b (b.setSettings c A) := by
  refine ⟨fun _ => .refl _, fun d => ?_, fun d => ?_, fun _ => id⟩ <;> rcases eq_or_ne d c with rfl | hd
  · simpa using hv
  · simp [hd]
  · simpa using hf
  · simp [hd]

theorem blockTicked_setTrig (b : Block) (k : Fin 8) : BlockTicked b (b.setTrig k true) := by
  refine ⟨fun _ => .refl _, fun _ => rfl, fun _ => rfl, fun m hm => ?_⟩
  rcases eq_or_ne m k with rfl | hk
  · simp
  · simpa [hk] using hm

theorem blockTicked_lfsrStep (cfg : Config) (c : Fin 4) (b : Block) : BlockTicked b (lfsrStep cfg c b) :=
  (blockTicked_setTimer (timerTicked_steppedTimer cfg b c)).trans (blockTicked_setSettings rfl rfl)

theorem blockTicked_countDown (cfg : Config) (i : Fin 12) (b : Block) : BlockTicked b (countDown cfg i b).block := by
  rcases countDown_cases cfg i b with ⟨-, e⟩ | ⟨k, -, -, e⟩ | ⟨c, -, -, e⟩ <;> rw [e]
  · exact blockTicked_setTimer (timerTicked_decremented _)
  · exact (blockTicked_setTimer (timerTicked_zeroEvent _)).trans (blockTicked_setTrig _ k)
  · exact (blockTicked_setTimer (timerTicked_zeroEvent _)).trans (blockTicked_lfsrStep cfg c _)

theorem blockTicked_tickLinked (cfg : Config) (i : Fin 12) (b : Block) : BlockTicked b (tickLinked cfg i b).block := by
  rcases tickLinked_cases cfg i b with ⟨-, e⟩ | ⟨-, e⟩ <;> rw [e]
  · exact blockTicked_countDown cfg i b
  · exact .refl b

theorem blockTicked_clockTick {o : StepOut} (h : clockTick cfg i t b = .ok o) : BlockTicked b o.block := by
  rcases clockTick_eq_ok h with ⟨-, -, rfl⟩ | ⟨-, rfl⟩ | ⟨-, -, -, n, -, rfl⟩
  · exact .refl b
  · exact blockTicked_setTimer (timerTicked_ticked _ _)
  · exact (blockTicked_setTimer (timerTicked_ticked _ _)).trans (blockTicked_countDown cfg i _)

theorem blockTicked_tickAll {w : Sweep} (h : tickAll cfg t b = .ok w) : BlockTicked b w.block := by
  obtain ⟨-, hsweep⟩ := tickAll_eq_ok.1 h
  have hstart : BlockTicked b (b.setNow t) := ⟨fun _ => .refl _, fun _ => rfl, fun _ => rfl, fun _ => id⟩
  exact sweep_induct (fun w => BlockTicked b w.block) (fun _ _ _ hw _ ho => hw.trans (blockTicked_clockTick ho))
    (fun j w hw => hw.trans (blockTicked_tickLinked cfg j w.block)) timerIds _ w hsweep hstart

end

/-! ## What can happen to one timer record -/

/-- What an instruction that completes can do to the record `T` of timer `i`. -/
inductive TimerEffect (T : Timer) (i : Fin 12) : Instr → Timer → Prop
  | unchanged {ins : Instr} : TimerEffect T i ins T
  | backup {ins : Instr} {v : Byte} (h : PokesBackup ins i v) : TimerEffect T i ins { T with backup := v }
  | controlA {ins : Instr} {v : Byte} (h : PokesControlA ins i v) (next : TickInf) :
      TimerEffect T i ins (T.writeControlA v next)
  | count {ins : Instr} {v : Byte} (h : PokesCount ins i v) (next : TickInf) :
      TimerEffect T i ins { T with count := v, next := next }
  | controlB {ins : Instr} {v : Byte} (h : PokesControlB ins i v) : TimerEffect T i ins { T with ctlb := v }
  | tickAll {t : Tick} {T' : Timer} (h : TimerTicked T T') : TimerEffect T i (.tickAll t) T'
  | reset : TimerEffect T i .reset Timer.reset

section
variable {cfg : Config} {b b' : Block} {ins : Instr}

theorem timerEffect_setTimer {i : Fin 12} {T : Timer} (h : TimerEffect (b.timer i) i ins T) (j : Fin 12) :
    TimerEffect (b.timer j) j ins ((b.setTimer i T).timer j) := by
  rcases eq_or_ne j i with rfl | hj
  · simpa using h
  · simpa [hj] using TimerEffect.unchanged

theorem Effect.timer (e : Effect cfg b ins b') (i : Fin 12) : TimerEffect (b.timer i) i ins (b'.timer i) := by
  cases e with
  | unchanged | volume c v | feedback c v | output c v | shiftLo c v | hsync | vsync => exact .unchanged
  | backup h => exact timerEffect_setTimer (.backup h) i
  | controlB h => exact timerEffect_setTimer (.controlB h) i
  | controlA h hb =>
    obtain ⟨next, rfl, -⟩ := setControlA_eq_ok.1 hb
    exact timerEffect_setTimer (.controlA h next) i
  | count h hb =>
    obtain ⟨next, rfl, -⟩ := setCount_eq_ok.1 hb
    exact timerEffect_setTimer (.count h next) i
  | tickAll h => exact .tickAll ((blockTicked_tickAll h).timer i)
  | reset => simpa using TimerEffect.reset

end

section
variable {T T' : Timer} {i : Fin 12} {ins : Instr}

theorem TimerEffect.ctla_eq (e : TimerEffect T i ins T') :
    T'.ctla = T.ctla ∨ (∃ v, PokesControlA ins i v) ∨ ins = .reset := by
  cases e with
  | unchanged | backup | count | controlB => exact .inl rfl
  | tickAll h => exact .inl h.ctla
  | controlA h => exact .inr (.inl ⟨_, h⟩)
  | reset => exact .inr (.inr rfl)

theorem TimerEffect.backup_eq (e : TimerEffect T i ins T') :
    T'.backup = T.backup ∨ (∃ v, PokesBackup ins i v) ∨ ins = .reset := by
  cases e with
  | unchanged | controlA | count | controlB => exact .inl rfl
  | tickAll h => exact .inl h.backup
  | backup h => exact .inr (.inl ⟨_, h⟩)
  | reset => exact .inr (.inr rfl)

theorem TimerEffect.count_eq (e : TimerEffect T i ins T') :
    T'.count = T.count ∨ (∃ v, PokesCount ins i v) ∨ (∃ t, ins = .tickAll t) ∨ ins = .reset := by
  cases e with
  | unchanged | backup | controlA | controlB => exact .inl rfl
  | count h => exact .inr (.inl ⟨_, h⟩)
  | tickAll => exact .inr (.inr (.inl ⟨_, rfl⟩))
  | reset => exact .inr (.inr (.inr rfl))

theorem done_writeControlA {v : Byte} {next : TickInf} :
    (T.writeControlA v next).done = (T.done && !v.getLsbD 6) := by
  unfold Timer.writeControlA Timer.done
  cases v.getLsbD 6 <;> simp [clearDone]

theorem bout_writeControlA {v : Byte} {next : TickInf} : (T.writeControlA v next).bout = T.bout := by
  unfold Timer.writeControlA Timer.bout
  cases v.getLsbD 6 <;> simp [clearDone]

theorem bin_writeControlA {v : Byte} {next : TickInf} : (T.writeControlA v next).bin = T.bin := by
  unfold Timer.writeControlA Timer.bin
  cases v.getLsbD 6 <;> simp [clearDone]

theorem TimerEffect.done_cleared (e : TimerEffect T i ins T') (h : T.done = true) (h' : T'.done = false) :
    (∃ v, PokesControlA ins i v ∧ v.getLsbD 6 = true) ∨ (∃ v, PokesControlB ins i v) ∨ ins = .reset := by
  cases e with
  | unchanged | backup | count => exact absurd h (Bool.eq_false_iff.1 h')
  | controlA hp => exact .inl ⟨_, hp, by simpa [done_writeControlA, h] using h'⟩
  | controlB hp => exact .inr (.inl ⟨_, hp⟩)
  | tickAll ht => exact absurd (ht.done h) (Bool.eq_false_iff.1 h')
  | reset => exact .inr (.inr rfl)

theorem TimerEffect.bout_cleared (e : TimerEffect T i ins T') (h : T.bout = true) (h' : T'.bout = false) :
    (∃ v, PokesControlB ins i v) ∨ ins = .reset := by
  cases e with
  | unchanged | backup | count => exact absurd h (Bool.eq_false_iff.1 h')
  | controlA => exact absurd (bout_writeControlA.trans h) (Bool.eq_false_iff.1 h')
  | controlB hp => exact .inl ⟨_, hp⟩
  | tickAll ht => exact absurd (ht.bout h) (Bool.eq_false_iff.1 h')
  | reset => exact .inr rfl

theorem TimerEffect.bin_set (e : TimerEffect T i ins T') (h : T.bin = false) (h' : T'.bin = true) :
    ∃ v, PokesControlB ins i v := by
  cases e with
  | unchanged | backup | count => exact absurd h' (Bool.eq_false_iff.1 h)
  | controlA => exact absurd h' (Bool.eq_false_iff.1 (bin_writeControlA.trans h))
  | controlB hp => exact ⟨_, hp⟩
  | tickAll ht => exact absurd h' (Bool.eq_false_iff.1 (ht.bin h))
  | reset => exact absurd h' (by decide)

end

/-! ## What can happen to one channel's settings -/

/-- What an instruction that completes can do to the settings `A` of channel `c`. -/
inductive SettingsEffect (A : AudioSettings) (c : Fin 4) : Instr → AudioSettings → Prop
  | unchanged {ins : Instr} : SettingsEffect A c ins A
  | volume (d : BitVec 2) (v : Byte) (h : c = channel d) : SettingsEffect A c (.pokeAvol d v) { A with volume := v }
  | feedback (d : BitVec 2) (v : Byte) (h : c = channel d) : SettingsEffect A c (.pokeAfb d v) { A with feedback := v }
  | output (d : BitVec 2) (v : Byte) (h : c = channel d) : SettingsEffect A c (.pokeAout d v) { A with output := v }
  | shiftLo (d : BitVec 2) (v : Byte) (h : c = channel d) : SettingsEffect A c (.pokeAshift d v) { A with shiftLo := v }
  | tickAll {t : Tick} {A' : AudioSettings} (hv : A'.volume = A.volume) (hf : A'.feedback = A.feedback) :
      SettingsEffect A c (.tickAll t) A'
  | reset : SettingsEffect A c .reset AudioSettings.reset

section
variable {cfg : Config} {b b' : Block} {ins : Instr}

theorem settingsEffect_setSettings {c : Fin 4} {A : AudioSettings} (h : SettingsEffect (b.settings c) c ins A) (d : Fin 4) :
    SettingsEffect (b.settings d) d ins ((b.setSettings c A).settings d) := by
  rcases eq_or_ne d c with rfl | hd
  · simpa using h
  · simpa [hd] using SettingsEffect.unchanged

theorem Effect.settings (e : Effect cfg b ins b') (c : Fin 4) : SettingsEffect (b.settings c) c ins (b'.settings c) := by
  cases e with
  | unchanged | backup | controlB | hsync | vsync => exact .unchanged
  | controlA h hb =>
    obtain ⟨next, rfl, -⟩ := setControlA_eq_ok.1 hb
    exact .unchanged
  | count h hb =>
    obtain ⟨next, rfl, -⟩ := setCount_eq_ok.1 hb
    exact .unchanged
  | volume d v => exact settingsEffect_setSettings (.volume d v rfl) c
  | feedback d v => exact settingsEffect_setSettings (.feedback d v rfl) c
  | output d v => exact settingsEffect_setSettings (.output d v rfl) c
  | shiftLo d v => exact settingsEffect_setSettings (.shiftLo d v rfl) c
  | tickAll h => exact .tickAll ((blockTicked_tickAll h).volume c) ((blockTicked_tickAll h).feedback c)
  | reset => simpa using SettingsEffect.reset

end

section
variable {A A' : AudioSettings} {c : Fin 4} {ins : Instr}

theorem SettingsEffect.volume_eq (e : SettingsEffect A c ins A') :
    A'.volume = A.volume ∨ (∃ d v, ins = .pokeAvol d v ∧ c = channel d) ∨ ins = .reset := by
  cases e with
  | unchanged | feedback | output | shiftLo => exact .inl rfl
  | tickAll hv => exact .inl hv
  | volume d v h => exact .inr (.inl ⟨d, v, rfl, h⟩)
  | reset => exact .inr (.inr rfl)

theorem SettingsEffect.feedback_eq (e : SettingsEffect A c ins A') :
    A'.feedback = A.feedback ∨ (∃ d v, ins = .pokeAfb d v ∧ c = channel d) ∨ ins = .reset := by
  cases e with
  | unchanged | volume | output | shiftLo => exact .inl rfl
  | tickAll _ hf => exact .inl hf
  | feedback d v h => exact .inr (.inl ⟨d, v, rfl, h⟩)
  | reset => exact .inr (.inr rfl)

theorem SettingsEffect.output_eq (e : SettingsEffect A c ins A') :
    A'.output = A.output ∨ (∃ d v, ins = .pokeAout d v ∧ c = channel d) ∨ (∃ t, ins = .tickAll t) ∨ ins = .reset := by
  cases e with
  | unchanged | volume | feedback | shiftLo => exact .inl rfl
  | output d v h => exact .inr (.inl ⟨d, v, rfl, h⟩)
  | tickAll => exact .inr (.inr (.inl ⟨_, rfl⟩))
  | reset => exact .inr (.inr (.inr rfl))

theorem SettingsEffect.shiftLo_eq (e : SettingsEffect A c ins A') :
    A'.shiftLo = A.shiftLo ∨ (∃ d v, ins = .pokeAshift d v ∧ c = channel d) ∨ (∃ t, ins = .tickAll t) ∨ ins = .reset := by
  cases e with
  | unchanged | volume | feedback | output => exact .inl rfl
  | shiftLo d v h => exact .inr (.inl ⟨d, v, rfl, h⟩)
  | tickAll => exact .inr (.inr (.inl ⟨_, rfl⟩))
  | reset => exact .inr (.inr (.inr rfl))

end

/-! ## The sticky flags and the current tick -/

section
variable {cfg : Config} {b b' : Block} {ins : Instr}

theorem trigFlag_setTrig_false (b : Block) (k m : Fin 8) :
    (b.setTrig k false).trigFlag m = b.trigFlag m ∨ ((b.setTrig k false).trigFlag m = false ∧ m = k) := by
  rcases eq_or_ne m k with rfl | hm
  · simp
  · simp [hm]

/-- A flag is kept, left set by TICKALL where it was set, or cleared by one of the three operations that clear it. -/
theorem Effect.trigFlag (e : Effect cfg b ins b') (k : Fin 8) :
    b'.trigFlag k = b.trigFlag k ∨ ((∃ t, ins = .tickAll t) ∧ (b.trigFlag k = true → b'.trigFlag k = true)) ∨
      (b'.trigFlag k = false ∧ ((ins = .hsync ∧ k = 0) ∨ (ins = .vsync ∧ k = 2) ∨ ins = .reset)) := by
  cases e with
  | unchanged | backup | controlB | volume | feedback | output | shiftLo => exact .inl rfl
  | controlA _ hb =>
    obtain ⟨next, rfl, -⟩ := setControlA_eq_ok.1 hb
    exact .inl rfl
  | count _ hb =>
    obtain ⟨next, rfl, -⟩ := setCount_eq_ok.1 hb
    exact .inl rfl
  | tickAll h => exact .inr (.inl ⟨⟨_, rfl⟩, (blockTicked_tickAll h).trig k⟩)
  | hsync => exact (trigFlag_setTrig_false b 0 k).imp_right fun ⟨hf, hk⟩ => .inr ⟨hf, .inl ⟨rfl, hk⟩⟩
  | vsync => exact (trigFlag_setTrig_false b 2 k).imp_right fun ⟨hf, hk⟩ => .inr ⟨hf, .inr (.inl ⟨rfl, hk⟩)⟩
  | reset => exact .inr (.inr ⟨trigFlag_reset k, .inr (.inr rfl)⟩)

theorem Effect.now (e : Effect cfg b ins b') :
    b'.now = b.now ∨ (ins = .tickAll b'.now ∧ b.now.toNat ≤ b'.now.toNat) ∨ (ins = .reset ∧ b'.now = 0) := by
  cases e with
  | unchanged | backup | controlB | volume | feedback | output | shiftLo | hsync | vsync => exact .inl rfl
  | controlA _ hb =>
    obtain ⟨next, rfl, -⟩ := setControlA_eq_ok.1 hb
    exact .inl rfl
  | count _ hb =>
    obtain ⟨next, rfl, -⟩ := setCount_eq_ok.1 hb
    exact .inl rfl
  | tickAll h =>
    rw [now_tickAll h]
    exact .inr (.inl ⟨rfl, (tickAll_eq_ok.1 h).1⟩)
  | reset => exact .inr (.inr ⟨rfl, rfl⟩)

end

/-! ## The statements -/

/-- Settles O49: of all that can happen to a record, only a ControlA poke of its timer and RESET write ControlA. -/
theorem controlAChangesOnlyByItsPoke : Obligations.ControlAChangesOnlyByItsPoke := by
  intro ins s s' i h hne
  obtain ⟨-, he⟩ := exec_eq_next h
  obtain ⟨v, hp⟩ | hreset := (he.timer i).ctla_eq.resolve_left hne
  · exact or_assoc.1 (.inl hp.exists_operands)
  · exact .inr (.inr hreset)

/-- Settles O50: of all that can happen to a record, only a Backup poke of its timer and RESET write Backup. -/
theorem backupChangesOnlyByItsPoke : Obligations.BackupChangesOnlyByItsPoke := by
  intro ins s s' i h hne
  obtain ⟨-, he⟩ := exec_eq_next h
  obtain ⟨v, hp⟩ | hreset := (he.timer i).backup_eq.resolve_left hne
  · exact or_assoc.1 (.inl hp.exists_operands)
  · exact .inr (.inr hreset)

/-- Settles O51: TICKALL keeps both registers, and each has one poke. -/
theorem volumeAndFeedbackChangeOnlyByTheirPokes : Obligations.VolumeAndFeedbackChangeOnlyByTheirPokes := by
  intro ins s s' c h
  obtain ⟨-, he⟩ := exec_eq_next h
  exact ⟨(he.settings c).volume_eq.resolve_left, (he.settings c).feedback_eq.resolve_left⟩

/-- Settles O52: the sweep of TICKALL leaves `now` at its tick. -/
theorem nowChangesOnlyByTickAllAndReset : Obligations.NowChangesOnlyByTickAllAndReset := by
  intro ins s s' h
  obtain ⟨-, he⟩ := exec_eq_next h
  exact he.now

/-- Settles O53: TICKALL clears no flag, and what clears one sets none. -/
theorem trigFlagsChangeOnlyAsStated : Obligations.TrigFlagsChangeOnlyAsStated := by
  intro ins s s' k h
  obtain ⟨-, he⟩ := exec_eq_next h
  rcases he.trigFlag k with heq | ⟨ht, hmono⟩ | ⟨hfalse, hclears⟩
  · simp +contextual [heq]
  · exact ⟨fun _ _ => ht, fun hset hclear => absurd (hmono hset) (by simp [hclear])⟩
  · exact ⟨fun _ hset => absurd hfalse (by simp [hset]), fun _ _ => hclears⟩

/-- Settles O54: TICKALL keeps DONE and BOUT where set and BIN where clear, and a ControlA poke writes DONE only. -/
theorem statusBitsChangeOnlyAsStated : Obligations.StatusBitsChangeOnlyAsStated := by
  intro ins s s' i h ctlbPoke ackPoke
  obtain ⟨-, he⟩ := exec_eq_next h
  refine ⟨fun hset hclear => ?_, fun hset hclear => ?_, fun hclear hset => ?_⟩
  · obtain ⟨v, hp, hv⟩ | ⟨v, hp⟩ | hreset := (he.timer i).done_cleared hset hclear
    · exact .inl (hp.exists_operands_of hv)
    · exact .inr (.inl hp.exists_operands)
    · exact .inr (.inr hreset)
  · obtain ⟨v, hp⟩ | hreset := (he.timer i).bout_cleared hset hclear
    · exact .inl hp.exists_operands
    · exact .inr hreset
  · obtain ⟨v, hp⟩ := (he.timer i).bin_set hclear hset
    exact hp.exists_operands

/-- Settles O55: of all that can happen to a record or to a channel's settings, only these write the three fields. -/
theorem countsAndSamplesChangeOnlyAsStated : Obligations.CountsAndSamplesChangeOnlyAsStated := by
  intro ins s s' h
  obtain ⟨-, he⟩ := exec_eq_next h
  refine ⟨fun i hne => ?_, fun c => (he.settings c).output_eq.resolve_left, fun c => (he.settings c).shiftLo_eq.resolve_left⟩
  obtain ⟨v, hp⟩ | hother := (he.timer i).count_eq.resolve_left hne
  · exact or_assoc.1 (.inl hp.exists_operands)
  · exact .inr (.inr hother)

end Sys2Proof.Proofs
end

section
/-! Idempotence of the register accesses (20_memory.md section 3, rule R88): a second peek reads what the first one left alone,
and a poke's update of its record or settings gives, on its own outcome, the same again. -/

namespace Sys2Proof.Proofs

open Sys2Proof Sys2Proof.Machine

/-! ## Writing one field twice -/

@[simp] theorem setTimer_setTimer (b : Block) (i : Fin 12) (T T' : Timer) : (b.setTimer i T).setTimer i T' = b.setTimer i T' := by
  simp [Block.setTimer]

@[simp] theorem setSettings_setSettings (b : Block) (c : Fin 4) (A A' : AudioSettings) :
    (b.setSettings c A).setSettings c A' = b.setSettings c A' := by
  simp [Block.setSettings]

theorem clearDone_clearDone (ctlb : Byte) : clearDone (clearDone ctlb) = clearDone ctlb := by
  simp [clearDone, BitVec.and_assoc]

theorem writeControlA_writeControlA (T : Timer) (v : Byte) (next : TickInf) :
    (T.writeControlA v next).writeControlA v next = T.writeControlA v next := by
  unfold Timer.writeControlA
  cases v.getLsbD 6 <;> simp [clearDone_clearDone]

/-! ## The operations that may fault -/

section
variable {cfg : Config} {i : Fin 12} {v : Byte} {b b' : Block}

/-- The schedule of a ControlA poke depends on the byte and on `now` alone, which the poke keeps. -/
theorem setControlA_again (h : setControlA cfg i v b = .ok b') : setControlA cfg i v b' = .ok b' := by
  obtain ⟨next, rfl, hnext⟩ := setControlA_eq_ok.1 h
  exact setControlA_eq_ok.2 ⟨next, by simp [writeControlA_writeControlA], hnext⟩

/-- The schedule of a Count poke depends on the byte, on ControlA and on `now`, which the poke keeps; where it does not
reschedule, it keeps `next`. -/
theorem setCount_again (h : setCount cfg i v b = .ok b') : setCount cfg i v b' = .ok b' := by
  obtain ⟨next, rfl, hnext⟩ := setCount_eq_ok.1 h
  refine setCount_eq_ok.2 ⟨next, by simp, ?_⟩
  simpa using hnext.imp_right And.left

end

/-! ## Ending a poke -/

section
variable {s s' : State}

/-- A poke that stores into a timer record by an idempotent update. -/
theorem finish_setTimer_again {i : Fin 12} (f : Timer → Timer) (hf : ∀ T, f (f T) = f T)
    (h : s.finish (s.block.setTimer i (f (s.block.timer i))) .none = .next s') :
    s'.finish (s'.block.setTimer i (f (s'.block.timer i))) .none = .next s' := by
  obtain rfl := (finish_eq_next _ _).1 h
  simp [finish_eq_next, hf]

/-- A poke that stores into a channel's settings by an idempotent update. -/
theorem finish_setSettings_again {c : Fin 4} (f : AudioSettings → AudioSettings) (hf : ∀ A, f (f A) = f A)
    (h : s.finish (s.block.setSettings c (f (s.block.settings c))) .none = .next s') :
    s'.finish (s'.block.setSettings c (f (s'.block.settings c))) .none = .next s' := by
  obtain rfl := (finish_eq_next _ _).1 h
  simp [finish_eq_next, hf]

/-- A poke whose operation, where it gives a block, gives that block again. -/
theorem finishPoke_again {op : Config → Block → Except Fault Block}
    (hop : ∀ {b'}, op s.cfg s.block = .ok b' → op s.cfg b' = .ok b') (h : s.finishPoke (op s.cfg s.block) = .next s') :
    s'.finishPoke (op s'.cfg s'.block) = .next s' := by
  obtain ⟨b', hb', rfl⟩ := (finishPoke_eq_next _).1 h
  exact (finishPoke_eq_next _).2 ⟨b', hop hb', rfl⟩

end

/-! ## The rows that are no peek and no poke -/

theorem op_trig (id : BitVec 4) : (encodeWord (.trig id)).extractLsb' 6 4 = 5 := BitVec.extractLsb'_append_eq_left

theorem op_audioOut (n : BitVec 6) : (encodeWord (.audioOut n)).extractLsb' 6 4 = 6 := BitVec.extractLsb'_append_eq_left

/-! ## The statement -/

/-- Settles O24: a peek leaves what it reads as it was, and every poke's update is idempotent. -/
theorem peeksAndPokesAreIdempotent : Obligations.PeeksAndPokesAreIdempotent := by
  intro ins s s' hrow h
  cases ins with
  | peekBkup _ | peekCtla _ | peekCnt _ | peekCtlb _ | peekAvol _ | peekAfb _ | peekAout _ | peekAshift _ | peekAbkup _
  | peekActla _ | peekAcnt _ | peekActlb _ =>
    obtain rfl := (finish_eq_next _ _).1 h
    rfl
  | pokeBkup _ v | pokeAbkup _ v => exact finish_setTimer_again (fun T => { T with backup := v }) (fun _ => rfl) h
  | pokeCtlb _ v | pokeActlb _ v => exact finish_setTimer_again (fun T => { T with ctlb := v }) (fun _ => rfl) h
  | pokeCtla i v => exact finishPoke_again (op := (setControlA · (baseTimer i) v)) setControlA_again h
  | pokeActla c v => exact finishPoke_again (op := (setControlA · (audioTimer c) v)) setControlA_again h
  | pokeCnt i v => exact finishPoke_again (op := (setCount · (baseTimer i) v)) setCount_again h
  | pokeAcnt c v => exact finishPoke_again (op := (setCount · (audioTimer c) v)) setCount_again h
  | pokeAvol _ v => exact finish_setSettings_again (fun A => { A with volume := v }) (fun _ => rfl) h
  | pokeAfb _ v => exact finish_setSettings_again (fun A => { A with feedback := v }) (fun _ => rfl) h
  | pokeAout _ v => exact finish_setSettings_again (fun A => { A with output := v }) (fun _ => rfl) h
  | pokeAshift _ v => exact finish_setSettings_again (fun A => { A with shiftLo := v }) (fun _ => rfl) h
  | tickAll _ | hsync | vsync | reset => simp [isPeek, isPoke, encodeWord] at hrow
  | trig _ => simp [isPeek, isPoke, op_trig] at hrow
  | audioOut _ => simp [isPeek, isPoke, op_audioOut] at hrow

end Sys2Proof.Proofs
end

section
/-! The transaction word (30_encoding.md sections 1 to 6): its fields, what the decoder makes of the words the encoder gives,
and what it can answer to any transaction. -/

namespace Sys2Proof.Proofs

open Sys2Proof Sys2Proof.Machine

/-! ## The fields of a word (rules R103, R104, R107) -/

@[simp] theorem opField_append (op : BitVec 4) (f : BitVec 6) : opField (op ++ f) = op :=
  BitVec.extractLsb'_append_eq_left

@[simp] theorem operandField_append (op : BitVec 4) (f : BitVec 6) : operandField (op ++ f) = f :=
  BitVec.extractLsb'_append_eq_right

theorem opField_append_operandField (w : Word) : opField w ++ operandField w = w :=
  (BitVec.extractLsb'_append_extractLsb'_eq_extractLsb' (x := w) (Nat.zero_add 6).symm).trans BitVec.extractLsb'_eq_self

theorem word_eq {w : Word} {op : BitVec 4} {f : BitVec 6} (hop : opField w = op) (hf : operandField w = f) : w = op ++ f := by
  rw [← hop, ← hf, opField_append_operandField]

theorem operandField_eq_append (w : Word) : operandField w = w.extractLsb' 4 2 ++ w.extractLsb' 0 4 :=
  (BitVec.extractLsb'_append_extractLsb'_eq_extractLsb' (Nat.zero_add 4).symm).symm

/-- An operand field in the base window: `win` clear, and the two fields of the offset. -/
theorem baseField_fields (i : BitVec 3) (k : BitVec 2) :
    let f : BitVec 6 := 0#1 ++ (i ++ k)
    f.getLsbD 5 = false ∧ f.extractLsb' 2 3 = i ∧ f.extractLsb' 0 2 = k := by
  decide +revert

/-- An operand field in the audio window: `win` set, and the two fields of the offset. -/
theorem audioField_fields (c : BitVec 2) (k : BitVec 3) :
    let f : BitVec 6 := 1#1 ++ (c ++ k)
    f.getLsbD 5 = true ∧ f.extractLsb' 3 2 = c ∧ f.extractLsb' 0 3 = k := by
  decide +revert

/-- Every operand field is one of the two. -/
theorem operandField_cases (f : BitVec 6) :
    (∃ (i : BitVec 3) (k : BitVec 2), f = 0#1 ++ (i ++ k)) ∨ ∃ (c : BitVec 2) (k : BitVec 3), f = 1#1 ++ (c ++ k) := by
  decide +revert

/-! ## The register a word names (rules R103, R104, R109) -/

theorem decodePeek_base (i : BitVec 3) (k : BitVec 2) : decodePeek (0#1 ++ (i ++ k)) = peekBase i k := by
  obtain ⟨hwin, hi, hk⟩ := baseField_fields i k
  rw [decodePeek, hwin, hi, hk, if_neg Bool.false_ne_true]

theorem decodePeek_audio (c : BitVec 2) (k : BitVec 3) : decodePeek (1#1 ++ (c ++ k)) = peekAudio c k := by
  obtain ⟨hwin, hc, hk⟩ := audioField_fields c k
  rw [decodePeek, hwin, hc, hk, if_pos rfl]

theorem decodePoke_base (i : BitVec 3) (k : BitVec 2) (v : Byte) : decodePoke (0#1 ++ (i ++ k)) v = pokeBase i k v := by
  obtain ⟨hwin, hi, hk⟩ := baseField_fields i k
  rw [decodePoke, hwin, hi, hk, if_neg Bool.false_ne_true]

theorem decodePoke_audio (c : BitVec 2) (k : BitVec 3) (v : Byte) : decodePoke (1#1 ++ (c ++ k)) v = pokeAudio c k v := by
  obtain ⟨hwin, hc, hk⟩ := audioField_fields c k
  rw [decodePoke, hwin, hc, hk, if_pos rfl]

theorem encodeWord_decodePeek (f : BitVec 6) : encodeWord (decodePeek f) = 0#4 ++ f := by
  decide +revert

theorem wellFormed_decodePeek (f : BitVec 6) : (decodePeek f).wellFormed = true := by
  decide +revert

theorem encodeWord_pokeBase (i : BitVec 3) (k : BitVec 2) (v : Byte) : encodeWord (pokeBase i k v) = baseWord 1 i k := by
  obtain ⟨⟨k, hk⟩⟩ := k
  interval_cases k <;> rfl

theorem encodeWord_pokeAudio (c : BitVec 2) (k : BitVec 3) (v : Byte) : encodeWord (pokeAudio c k v) = audioWord 1 c k := by
  obtain ⟨⟨k, hk⟩⟩ := k
  interval_cases k <;> rfl

theorem encodeWord_decodePoke (f : BitVec 6) (v : Byte) : encodeWord (decodePoke f v) = 1#4 ++ f := by
  obtain ⟨i, k, rfl⟩ | ⟨c, k, rfl⟩ := operandField_cases f
  · rw [decodePoke_base]
    exact encodeWord_pokeBase i k v
  · rw [decodePoke_audio]
    exact encodeWord_pokeAudio c k v

theorem wellFormed_decodePoke (f : BitVec 6) (v : Byte) : (decodePoke f v).wellFormed = true := by
  unfold decodePoke pokeBase pokeAudio
  split <;> split <;> rfl

theorem encodeData_decodePoke (f : BitVec 6) (v : Byte) : encodeData (decodePoke f v) = v := by
  unfold decodePoke pokeBase pokeAudio
  split <;> split <;> rfl

/-! ## The decoder, op by op (rule R108) -/

section
variable (f : BitVec 6) (v : Byte) (t : Tick)

theorem decode_peek : decode ⟨0#4 ++ f, v, t⟩ = .ok (decodePeek f) := by simp [decode]

theorem decode_poke : decode ⟨1#4 ++ f, v, t⟩ = .ok (decodePoke f v) := by simp [decode]

theorem decode_trig : decode ⟨5#4 ++ f, v, t⟩ = decodeTrig (5#4 ++ f) := by simp [decode]

theorem decode_audioOut : decode ⟨6#4 ++ f, v, t⟩ = .ok (.audioOut f) := by simp [decode]

theorem decode_tickAll : decode ⟨0b0010000000, v, t⟩ = .ok (.tickAll t) := by
  simp [decode, decodeNoOperand, opField, operandField]

end

theorem decode_peekBase (i : BitVec 3) (k : BitVec 2) (v : Byte) (t : Tick) :
    decode ⟨baseWord 0 i k, v, t⟩ = .ok (peekBase i k) := by
  rw [baseWord, ← decodePeek_base]
  exact decode_peek _ v t

theorem decode_peekAudio (c : BitVec 2) (k : BitVec 3) (v : Byte) (t : Tick) :
    decode ⟨audioWord 0 c k, v, t⟩ = .ok (peekAudio c k) := by
  rw [audioWord, ← decodePeek_audio]
  exact decode_peek _ v t

theorem decode_pokeBase (i : BitVec 3) (k : BitVec 2) (v : Byte) (t : Tick) :
    decode ⟨baseWord 1 i k, v, t⟩ = .ok (pokeBase i k v) := by
  rw [baseWord, ← decodePoke_base]
  exact decode_poke _ v t

theorem decode_pokeAudio (c : BitVec 2) (k : BitVec 3) (v : Byte) (t : Tick) :
    decode ⟨audioWord 1 c k, v, t⟩ = .ok (pokeAudio c k v) := by
  rw [audioWord, ← decodePoke_audio]
  exact decode_poke _ v t

theorem decodeTrig_of_lt {id : BitVec 4} (h : id.toNat < 12) : decodeTrig (5#4 ++ (0#2 ++ id)) = .ok (.trig id) := by
  decide +revert

/-- Settles O1: the word of each row, read field by field. -/
theorem encodedInstructionsDecodeBack : Obligations.EncodedInstructionsDecodeBack := by
  intro i hwf
  cases i with
  | peekBkup i | peekCtla i | peekCnt i | peekCtlb i => exact decode_peekBase i _ _ _
  | peekAvol c | peekAfb c | peekAout c | peekAshift c | peekAbkup c | peekActla c | peekAcnt c | peekActlb c =>
    exact decode_peekAudio c _ _ _
  | pokeBkup i v | pokeCtla i v | pokeCnt i v | pokeCtlb i v => exact decode_pokeBase i _ v _
  | pokeAvol c v | pokeAfb c v | pokeAout c v | pokeAshift c v | pokeAbkup c v | pokeActla c v | pokeAcnt c v
  | pokeActlb c v => exact decode_pokeAudio c _ v _
  | tickAll t => exact decode_tickAll 0 t
  | hsync | vsync | reset => rfl
  | trig id => exact (decode_trig _ _ _).trans (decodeTrig_of_lt (of_decide_eq_true hwf))
  | audioOut n => exact decode_audioOut n _ _

/-! ## The two classes of rejected words (rule R112) -/

section
variable {w : Word}

theorem reservedWord_iff :
    ReservedWord w ↔ 8 ≤ (opField w).toNat ∨
      ((opField w = 2 ∨ opField w = 3 ∨ opField w = 4 ∨ opField w = 7) ∧ operandField w ≠ 0) ∨
      (opField w = 5 ∧ w.extractLsb' 4 2 ≠ 0) := Iff.rfl

theorem badTimerWord_iff :
    BadTimerWord w ↔ opField w = 5 ∧ w.extractLsb' 4 2 = 0 ∧ 12 ≤ (w.extractLsb' 0 4).toNat := Iff.rfl

theorem not_reservedWord_of_badTimerWord (h : BadTimerWord w) : ¬ ReservedWord w := by
  obtain ⟨hop, hzero, -⟩ := badTimerWord_iff.1 h
  simp [reservedWord_iff, hop, hzero]

end

/-! ## What the decoder can answer (rules R112, R114) -/

/-- `i` is the instruction of the transaction `x`: well-formed, with the word of `x` and the operand that accompanies the word
(rule R115: the byte under op 0001, the tick under op 0010). -/
structure Carries (x : Transaction) (i : Instr) : Prop where
  wellFormed : i.wellFormed = true
  word : encodeWord i = x.word
  data : opField x.word = 1 → encodeData i = x.data
  tick : opField x.word = 2 → encodeTick i = x.tick

/-- The answers that are right for a transaction; the three cases exclude each other. -/
inductive Answers (x : Transaction) : Except Reject Instr → Prop
  | reserved (h : ReservedWord x.word) : Answers x (.error (.reservedOp x.word))
  | badTimer (h : BadTimerWord x.word) : Answers x (.error (.badTimerId x.word))
  | instr {i : Instr} (hr : ¬ ReservedWord x.word) (hb : ¬ BadTimerWord x.word) (hi : Carries x i) : Answers x (.ok i)

section
variable {x : Transaction}

theorem answers_peek (hop : opField x.word = 0) : Answers x (.ok (decodePeek (operandField x.word))) :=
  .instr (by simp [reservedWord_iff, hop]) (by simp [badTimerWord_iff, hop])
    ⟨wellFormed_decodePeek _, (encodeWord_decodePeek _).trans (word_eq hop rfl).symm, by simp [hop], by simp [hop]⟩

theorem answers_poke (hop : opField x.word = 1) : Answers x (.ok (decodePoke (operandField x.word) x.data)) :=
  .instr (by simp [reservedWord_iff, hop]) (by simp [badTimerWord_iff, hop])
    ⟨wellFormed_decodePoke _ _, (encodeWord_decodePoke _ _).trans (word_eq hop rfl).symm,
    fun _ => encodeData_decodePoke _ _, by simp [hop]⟩

theorem answers_audioOut (hop : opField x.word = 6) : Answers x (.ok (.audioOut (operandField x.word))) :=
  .instr (by simp [reservedWord_iff, hop]) (by simp [badTimerWord_iff, hop])
    ⟨rfl, (word_eq hop rfl).symm, by simp [hop], by simp [hop]⟩

/-- An operation without operand, whose word is its op and six zeros. -/
theorem answers_noOperand {i : Instr} {op : BitVec 4} (hop : opField x.word = op) (h : op = 2 ∨ op = 3 ∨ op = 4 ∨ op = 7)
    (hwf : i.wellFormed = true) (hword : encodeWord i = op ++ 0#6) (htick : op = 2 → encodeTick i = x.tick) :
    Answers x (decodeNoOperand x.word i) := by
  subst hop
  unfold decodeNoOperand
  split
  case isTrue hf =>
    have hi : Carries x i :=
      ⟨hwf, hword.trans (word_eq rfl hf).symm, fun h1 => by simp [h1] at h, htick⟩
    refine .instr ?_ ?_ hi
    all_goals obtain h | h | h | h := h <;> simp [reservedWord_iff, badTimerWord_iff, h, hf]
  case isFalse hf => exact .reserved (.inr (.inl ⟨h, hf⟩))

theorem answers_trig (hop : opField x.word = 5) : Answers x (decodeTrig x.word) := by
  unfold decodeTrig
  split
  case isTrue hzero => exact .reserved (.inr (.inr ⟨hop, hzero⟩))
  case isFalse hzero =>
    rw [not_not] at hzero
    split
    case isTrue hid => exact .badTimer ⟨hop, hzero, hid⟩
    case isFalse hid =>
      have hword := word_eq hop (operandField_eq_append x.word)
      rw [hzero] at hword
      exact .instr (by simp [reservedWord_iff, hop, hzero]) (fun hbad => hid hbad.2.2)
        ⟨decide_eq_true (Nat.not_le.1 hid), hword.symm, by simp [hop], by simp [hop]⟩

end

/-- The decoder answers every transaction rightly. -/
theorem answers_decode (x : Transaction) : Answers x (decode x) := by
  unfold decode
  split
  case h_1 h => exact answers_peek (BitVec.eq_of_toNat_eq h)
  case h_2 h => exact answers_poke (BitVec.eq_of_toNat_eq h)
  case h_3 h => exact answers_noOperand (op := 2) (BitVec.eq_of_toNat_eq h) (by decide) rfl rfl fun _ => rfl
  case h_4 h => exact answers_noOperand (op := 3) (BitVec.eq_of_toNat_eq h) (by decide) rfl rfl (by simp)
  case h_5 h => exact answers_noOperand (op := 4) (BitVec.eq_of_toNat_eq h) (by decide) rfl rfl (by simp)
  case h_6 h => exact answers_trig (BitVec.eq_of_toNat_eq h)
  case h_7 h => exact answers_audioOut (BitVec.eq_of_toNat_eq h)
  case h_8 h => exact answers_noOperand (op := 7) (BitVec.eq_of_toNat_eq h) (by decide) rfl rfl (by simp)
  case h_9 =>
    have hop : 8 ≤ (opField x.word).toNat := by grind
    exact .reserved (.inl hop)

/-- Settles O2: the only right answer that is an instruction is the one the transaction carries. -/
theorem decodedInstructionsReencode : Obligations.DecodedInstructionsReencode := by
  intro x i h
  have hd := answers_decode x
  rw [h] at hd
  cases hd with | instr _ _ hi =>
  exact ⟨hi.wellFormed, hi.word, hi.data, hi.tick⟩

/-- Settles O3: each rejection is the right answer of one class of words, and the two classes exclude each other. -/
theorem reservedWordsAreRejected : Obligations.ReservedWordsAreRejected := by
  intro x
  have hd := answers_decode x
  generalize decode x = r at hd ⊢
  cases hd with
  | reserved h => simp [h, eq_comm, mt not_reservedWord_of_badTimerWord]
  | badTimer h => simp [h, eq_comm, not_reservedWord_of_badTimerWord]
  | instr hr hb _ => simp [hr, hb]

/-- Settles O4: an instruction is the right answer to no rejected word. -/
theorem everyWordDecodesOrIsRejected : Obligations.EveryWordDecodesOrIsRejected := by
  intro x
  have hd := answers_decode x
  generalize decode x = r at hd ⊢
  cases hd with
  | reserved h => simp [h]
  | badTimer h => simp [h]
  | instr hr hb _ => simp [hr, hb]

end Sys2Proof.Proofs
end

section
/-! Peeks and pokes by address (30_encoding.md sections 2 and 8): the register an address of either window names, and the
lines of a program that name it. -/

namespace Sys2Proof.Proofs

open Sys2Proof Sys2Proof.Machine

/-! ## The address decode (rules R102 to R104) -/

section
variable (cfg : Config)

/-- Address `base + n` of a window does not wrap. -/
theorem toNat_add_ofNat {base : Addr} {n : Nat} (hbase : base.toNat + 31 ≤ 0xFFFF) (hn : n < 32) :
    (base + BitVec.ofNat 16 n).toNat = base.toNat + n := by
  rw [BitVec.toNat_add, BitVec.toNat_ofNat]
  omega

theorem decodeAddr_timerBase {n : Nat} (hn : n < 32) :
    decodeAddr cfg (cfg.timerBase + BitVec.ofNat 16 n) = some (0, BitVec.ofNat 5 n) := by
  obtain ⟨-, hbase, -, -⟩ := cfg.valid
  rw [decodeAddr, toNat_add_ofNat hbase hn, if_pos (by omega), Nat.add_sub_cancel_left]

theorem decodeAddr_audioBase {n : Nat} (hn : n < 32) :
    decodeAddr cfg (cfg.audioBase + BitVec.ofNat 16 n) = some (1, BitVec.ofNat 5 n) := by
  obtain ⟨-, -, hbase, hdisjoint⟩ := cfg.valid
  rw [decodeAddr, toNat_add_ofNat hbase hn, if_neg (by omega), if_pos (by omega), Nat.add_sub_cancel_left]

/-- The offset of register `k` of timer `i`. -/
theorem ofNat_baseOffset (i : BitVec 3) (k : BitVec 2) : BitVec.ofNat 5 (4 * i.toNat + k.toNat) = i ++ k := by
  decide +revert

/-- The offset of register `k` of channel `c`. -/
theorem ofNat_audioOffset (c : BitVec 2) (k : BitVec 3) : BitVec.ofNat 5 (8 * c.toNat + k.toNat) = c ++ k := by
  decide +revert

/-- The address of register `k` of base timer `i`. -/
def baseAddr (i : BitVec 3) (k : BitVec 2) : Addr := cfg.timerBase + BitVec.ofNat 16 (4 * i.toNat + k.toNat)

/-- The address of register `k` of channel `c`. -/
def audioAddr (c : BitVec 2) (k : BitVec 3) : Addr := cfg.audioBase + BitVec.ofNat 16 (8 * c.toNat + k.toNat)

theorem decodeAddr_baseAddr (i : BitVec 3) (k : BitVec 2) : decodeAddr cfg (baseAddr cfg i k) = some (0, i ++ k) := by
  rw [baseAddr, decodeAddr_timerBase cfg (by omega), ofNat_baseOffset]

theorem decodeAddr_audioAddr (c : BitVec 2) (k : BitVec 3) : decodeAddr cfg (audioAddr cfg c k) = some (1, c ++ k) := by
  rw [audioAddr, decodeAddr_audioBase cfg (by omega), ofNat_audioOffset]

theorem toInstr_peek_baseAddr (i : BitVec 3) (k : BitVec 2) :
    Request.toInstr cfg (.peek (baseAddr cfg i k)) = .ok (peekBase i k) := by
  rw [Request.toInstr, decodeAddr_baseAddr]
  exact decode_peekBase i k 0 0

theorem toInstr_poke_baseAddr (i : BitVec 3) (k : BitVec 2) (v : Byte) :
    Request.toInstr cfg (.poke (baseAddr cfg i k) v) = .ok (pokeBase i k v) := by
  rw [Request.toInstr, decodeAddr_baseAddr]
  exact decode_pokeBase i k v 0

theorem toInstr_peek_audioAddr (c : BitVec 2) (k : BitVec 3) :
    Request.toInstr cfg (.peek (audioAddr cfg c k)) = .ok (peekAudio c k) := by
  rw [Request.toInstr, decodeAddr_audioAddr]
  exact decode_peekAudio c k 0 0

theorem toInstr_poke_audioAddr (c : BitVec 2) (k : BitVec 3) (v : Byte) :
    Request.toInstr cfg (.poke (audioAddr cfg c k) v) = .ok (pokeAudio c k v) := by
  rw [Request.toInstr, decodeAddr_audioAddr]
  exact decode_pokeAudio c k v 0

end

/-- Settles O6: the four registers of a base timer, by address. -/
theorem baseWindowAddressesDecode : Obligations.BaseWindowAddressesDecode := fun cfg i v =>
  have peek := toInstr_peek_baseAddr cfg i
  have poke k := toInstr_poke_baseAddr cfg i k v
  ⟨peek 0, peek 1, peek 2, peek 3, poke 0, poke 1, poke 2, poke 3⟩

/-- Settles O7: the eight registers of a channel, by address. -/
theorem audioWindowAddressesDecode : Obligations.AudioWindowAddressesDecode := fun cfg c v =>
  have peek := toInstr_peek_audioAddr cfg c
  have poke k := toInstr_poke_audioAddr cfg c k v
  ⟨peek 0, peek 1, peek 2, peek 3, peek 4, peek 5, peek 6, peek 7,
    poke 0, poke 1, poke 2, poke 3, poke 4, poke 5, poke 6, poke 7⟩

/-! ## Timer ids as operands (rule R116) -/

theorem asmBaseId_toNat (i : BitVec 3) : asmBaseId i.toNat = .ok i := by
  rw [asmBaseId, if_pos (by omega), BitVec.ofInt_natCast, BitVec.ofNat_toNat, BitVec.setWidth_eq]

theorem asmAudioId_toNat (c : BitVec 2) : asmAudioId ((8 + c.toNat : Nat) : Int) = .ok c := by
  rw [asmAudioId, if_pos (by omega), Nat.cast_add, Nat.cast_ofNat, add_sub_cancel_left, BitVec.ofInt_natCast,
    BitVec.ofNat_toNat, BitVec.setWidth_eq]

/-! ## Address lines (rule R117) -/

/-- The mnemonics that `assembleLine` expands itself; every other is a mnemonic of the opcode map. -/
def pseudoMnemonics : List String := ["ARM", "ACKDONE", "SEED", "TAPS", "peek", "poke"]

section
variable {cfg : Config} {α : Type} {parseId : Int → Except AsmError α} {x : α} {id : Int} {base : Addr} {n : Nat}
  {m : String} {r : List String}

theorem asmField_addr (hn : base.toNat + n < 2 ^ 16) :
    asmField 16 ((base.toNat + n : Nat) : Int) = .ok (base + BitVec.ofNat 16 n) := by
  rw [asmField_natCast 16 _ hn, BitVec.ofNat_add, BitVec.ofNat_toNat, BitVec.setWidth_eq]

/-- The line `peek` of an address is the line of mnemonic `m`, where the address names the register of `m`. -/
theorem peekLine_eq {row : α → Instr} (hn : base.toNat + n < 2 ^ 16)
    (haddr : Request.toInstr cfg (.peek (base + BitVec.ofNat 16 n)) = .ok (row x)) (hid : parseId id = .ok x)
    (hm : ∀ p ∈ pseudoMnemonics, m ≠ p) (hrow : ∀ ops, assembleCore m ops = asm1 ops parseId row) :
    assembleLine cfg ⟨"peek", [((base.toNat + n : Nat) : Int)], r⟩ = assembleLine cfg ⟨m, [id], r⟩ := by
  rw [assembleLine_peek, asmField_addr hn, assembleLine_core cfg m _ r hm, hrow]
  simp [expandAccess, haddr, asm1, hid, asmSingle, Except.bind, Except.map]

/-- The line `poke` of an address is the line of mnemonic `m`, where the address names the register of `m` and `m` takes the
values of that register. -/
theorem pokeLine_eq {row : α → Byte → Instr} (v : Int) (hn : base.toNat + n < 2 ^ 16)
    (haddr : ∀ d, Request.toInstr cfg (.poke (base + BitVec.ofNat 16 n) d) = .ok (row x d)) (hid : parseId id = .ok x)
    (hm : ∀ p ∈ pseudoMnemonics, m ≠ p)
    (hrow : ∀ ops, assembleCore m ops = asm2 ops parseId (asmPokeValue (row x 0)) row) :
    assembleLine cfg ⟨"poke", [((base.toNat + n : Nat) : Int), v], r⟩ = assembleLine cfg ⟨m, [id, v], r⟩ := by
  rw [assembleLine_poke, asmField_addr hn, assembleLine_core cfg m _ r hm, hrow]
  simp only [Except.bind, expandPoke_of_toInstr (row x) v haddr, asm2, hid, asmSingle]
  cases asmPokeValue (row x 0) v <;> rfl

end

section
variable (cfg : Config) {m : String} (r : List String)

theorem peekLine_base (i : BitVec 3) (k : BitVec 2) (hm : ∀ p ∈ pseudoMnemonics, m ≠ p)
    (hrow : ∀ ops, assembleCore m ops = asm1 ops asmBaseId (peekBase · k)) :
    assembleLine cfg ⟨"peek", [((cfg.timerBase.toNat + 4 * i.toNat + k.toNat : Nat) : Int)], r⟩ =
      assembleLine cfg ⟨m, [i.toNat], r⟩ := by
  obtain ⟨-, hbase, -, -⟩ := cfg.valid
  rw [Nat.add_assoc]
  exact peekLine_eq (row := (peekBase · k)) (by omega) (toInstr_peek_baseAddr cfg i k) (asmBaseId_toNat i) hm hrow

theorem pokeLine_base (i : BitVec 3) (k : BitVec 2) (v : Int) (hm : ∀ p ∈ pseudoMnemonics, m ≠ p)
    (hrow : ∀ ops, assembleCore m ops = asm2 ops asmBaseId (asmPokeValue (pokeBase i k 0)) (pokeBase · k)) :
    assembleLine cfg ⟨"poke", [((cfg.timerBase.toNat + 4 * i.toNat + k.toNat : Nat) : Int), v], r⟩ =
      assembleLine cfg ⟨m, [i.toNat, v], r⟩ := by
  obtain ⟨-, hbase, -, -⟩ := cfg.valid
  rw [Nat.add_assoc]
  exact pokeLine_eq (row := (pokeBase · k)) v (by omega) (toInstr_poke_baseAddr cfg i k) (asmBaseId_toNat i) hm hrow

theorem peekLine_audio (c : BitVec 2) (k : BitVec 3) (hm : ∀ p ∈ pseudoMnemonics, m ≠ p)
    (hrow : ∀ ops, assembleCore m ops = asm1 ops asmAudioId (peekAudio · k)) :
    assembleLine cfg ⟨"peek", [((cfg.audioBase.toNat + 8 * c.toNat + k.toNat : Nat) : Int)], r⟩ =
      assembleLine cfg ⟨m, [((8 + c.toNat : Nat) : Int)], r⟩ := by
  obtain ⟨-, -, hbase, -⟩ := cfg.valid
  rw [Nat.add_assoc]
  exact peekLine_eq (row := (peekAudio · k)) (by omega) (toInstr_peek_audioAddr cfg c k) (asmAudioId_toNat c) hm hrow

theorem pokeLine_audio (c : BitVec 2) (k : BitVec 3) (v : Int) (hm : ∀ p ∈ pseudoMnemonics, m ≠ p)
    (hrow : ∀ ops, assembleCore m ops = asm2 ops asmAudioId (asmPokeValue (pokeAudio c k 0)) (pokeAudio · k)) :
    assembleLine cfg ⟨"poke", [((cfg.audioBase.toNat + 8 * c.toNat + k.toNat : Nat) : Int), v], r⟩ =
      assembleLine cfg ⟨m, [((8 + c.toNat : Nat) : Int), v], r⟩ := by
  obtain ⟨-, -, hbase, -⟩ := cfg.valid
  rw [Nat.add_assoc]
  exact pokeLine_eq (row := (pokeAudio · k)) v (by omega) (toInstr_poke_audioAddr cfg c k) (asmAudioId_toNat c) hm hrow

end

/-- Settles O56: an address line and its mnemonic's line expand to the instruction of one register, and `asmPokeValue` of that
register is the range of its mnemonic. -/
theorem addressLinesExpandToTheirMnemonics : Obligations.AddressLinesExpandToTheirMnemonics := by
  constructor
  · intro cfg i n r
    have peek k {m} := peekLine_base cfg (m := m) r i k
    have poke k {m} := pokeLine_base cfg (m := m) r i k n
    exact ⟨peek 0 (by decide) fun _ => rfl, poke 0 (by decide) fun _ => rfl,
      peek 1 (by decide) fun _ => rfl, poke 1 (by decide) fun _ => rfl,
      peek 2 (by decide) fun _ => rfl, poke 2 (by decide) fun _ => rfl,
      peek 3 (by decide) fun _ => rfl, poke 3 (by decide) fun _ => rfl⟩
  · intro cfg c n r
    have peek k {m} := peekLine_audio cfg (m := m) r c k
    have poke k {m} := pokeLine_audio cfg (m := m) r c k n
    exact ⟨peek 0 (by decide) fun _ => rfl, poke 0 (by decide) fun _ => rfl,
      peek 1 (by decide) fun _ => rfl, poke 1 (by decide) fun _ => rfl,
      peek 2 (by decide) fun _ => rfl, poke 2 (by decide) fun _ => rfl,
      peek 3 (by decide) fun _ => rfl, poke 3 (by decide) fun _ => rfl,
      peek 4 (by decide) fun _ => rfl, poke 4 (by decide) fun _ => rfl,
      peek 5 (by decide) fun _ => rfl, poke 5 (by decide) fun _ => rfl,
      peek 6 (by decide) fun _ => rfl, poke 6 (by decide) fun _ => rfl,
      peek 7 (by decide) fun _ => rfl, poke 7 (by decide) fun _ => rfl⟩

/-! ## SEED (rule R117) -/

/-- The ControlB byte and the ShiftRegister byte that SEED stores give back the 12-bit value. -/
theorem lfsrOf_seed (x : U12) : lfsrOf (x.extractLsb' 8 4 ++ 0#4) (x.extractLsb' 0 8) = x := by
  rw [lfsrOf, BitVec.extractLsb'_append_eq_left]
  exact (BitVec.extractLsb'_append_extractLsb'_eq_extractLsb' (Nat.zero_add 8).symm).trans BitVec.extractLsb'_eq_self

/-- The ControlB byte that SEED stores has its bits 3..0 clear. -/
theorem statusBits_seed (x : U12) : (x.extractLsb' 8 4 ++ 0#4).extractLsb' 0 4 = 0 :=
  BitVec.extractLsb'_append_eq_right

theorem expandSeed_toNat (c : BitVec 2) (x : U12) :
    expandSeed (8 + c.toNat) x.toNat =
      .ok [.pokeAshift c (x.extractLsb' 0 8), .pokeActlb c (x.extractLsb' 8 4 ++ 0#4)] := by
  have hid := asmAudioId_toNat c
  rw [Nat.cast_add, Nat.cast_ofNat] at hid
  rw [expandSeed, hid, asmField_natCast 12 _ x.isLt, BitVec.ofNat_toNat, BitVec.setWidth_eq]
  rfl

/-- Settles O25: the two pokes store the two parts of the value. -/
theorem seedSetsTheLfsr : Obligations.SeedSetsTheLfsr := by
  intro s c x
  refine ⟨_, _, _, _, expandSeed_toNat ⟨c⟩ x, rfl, rfl, ?_, ?_⟩
  · simp [Block.lfsr, storeControlB, audioTimer, channel, lfsrOf_seed]
  · simp [storeControlB, audioTimer, channel, statusBits_seed]

end Sys2Proof.Proofs
end

section
/-! Register writes that reschedule (40_countdown.md section 3, rules R142 and R143): what a poke of a timer record leaves of the
state, and the outcome of a ControlA and of a Count poke. -/

namespace Sys2Proof.Proofs

open Sys2Proof Sys2Proof.Machine

/-! ## The conditions and the tick of a reschedule -/

theorem arms_iff_arming {v : Byte} : arms v = true ↔ Arming v := by
  simp [arms, Arming, cenOf, linkedOf, periodOf]

theorem not_arming_iff {v : Byte} : ¬ Arming v ↔ arms v = false := by
  rw [← arms_iff_arming, Bool.not_eq_true]

section
variable {cfg : Config} {v : Byte} {origin : Tick}

theorem reschedule_of_fits (i : Fin 12) (h : clockedAt cfg v origin < 2 ^ 64) :
    reschedule cfg i v origin = .ok (BitVec.ofNat 64 (clockedAt cfg v origin)) :=
  (reschedule_eq_ok i).2 ⟨h, rfl⟩

theorem reschedule_of_overflow (i : Fin 12) (h : 2 ^ 64 ≤ clockedAt cfg v origin) :
    reschedule cfg i v origin = .error (.tickOverflow i origin) :=
  (reschedule_eq_error i).2 ⟨h, rfl⟩

end

/-! ## How a poke of a timer record ends -/

theorem setTimer_onlyTimer (i : Fin 12) (b : Block) (T : Timer) : Block.OnlyTimer i b (b.setTimer i T) :=
  ⟨fun _ hj => timer_setTimer_of_ne _ _ _ _ hj, fun _ => rfl, fun _ => rfl, rfl⟩

section
variable {s : State} {i : Fin 12} {T : Timer} {r : Except Fault Block}

theorem finish_setTimer_pokes (s : State) (i : Fin 12) (T : Timer) :
    ∃ s', s.finish (s.block.setTimer i T) .none = .next s' ∧ s.PokedTimer i T s' :=
  ⟨_, rfl, timer_setTimer_self _ _ _, setTimer_onlyTimer _ _ _, ⟨rfl, rfl⟩, rfl⟩

theorem finishPoke_setTimer_pokes (h : r = .ok (s.block.setTimer i T)) :
    ∃ s', s.finishPoke r = .next s' ∧ s.PokedTimer i T s' :=
  h ▸ finish_setTimer_pokes s i T

end

/-! ## ControlA and Count -/

theorem controlAPoked_setControlA (s : State) (i : Fin 12) (v : Byte) :
    ControlAPoked s i v (s.finishPoke (setControlA s.cfg i v s.block)) := by
  refine ⟨fun hidle => ?_, fun harm hfits => ?_, fun harm hover => ?_⟩
  · exact finishPoke_setTimer_pokes (setControlA_eq_ok.2 ⟨never, rfl, .inr ⟨not_arming_iff.1 hidle, rfl⟩⟩)
  · exact finishPoke_setTimer_pokes
      (setControlA_eq_ok.2 ⟨_, rfl, .inl ⟨arms_iff_arming.2 harm, _, reschedule_of_fits i hfits, rfl⟩⟩)
  · exact (finishPoke_eq_fault s).2 (setControlA_eq_error.2 ⟨arms_iff_arming.2 harm, reschedule_of_overflow i hover⟩)

/-- Settles O22: `set_control_a` under its two conditions, CEN set and not linked, and the reschedule below 2^64. -/
theorem controlAPokesFollowSetControlA : Obligations.ControlAPokesFollowSetControlA :=
  ⟨fun s i => controlAPoked_setControlA s (baseTimer i), fun s c => controlAPoked_setControlA s (audioTimer c)⟩

/-- Where a Count poke reschedules. -/
theorem countReschedules_iff {a v : Byte} : (arms a && v != 0) = true ↔ Arming a ∧ v ≠ 0 := by
  rw [Bool.and_eq_true, arms_iff_arming, bne_iff_ne]

theorem countPoked_setCount (s : State) (i : Fin 12) (v : Byte) :
    CountPoked s i v (s.finishPoke (setCount s.cfg i v s.block)) := by
  refine ⟨fun hkeep => ?_, fun harm hv hfits => ?_, fun harm hv hover => ?_⟩
  · have hkeep := Bool.eq_false_iff.2 (mt countReschedules_iff.1 hkeep)
    exact finishPoke_setTimer_pokes (setCount_eq_ok.2 ⟨_, rfl, .inr ⟨hkeep, rfl⟩⟩)
  · have hres := countReschedules_iff.2 ⟨harm, hv⟩
    exact finishPoke_setTimer_pokes (setCount_eq_ok.2 ⟨_, rfl, .inl ⟨hres, _, reschedule_of_fits i hfits, rfl⟩⟩)
  · have hres := countReschedules_iff.2 ⟨harm, hv⟩
    exact (finishPoke_eq_fault s).2 (setCount_eq_error.2 ⟨hres, reschedule_of_overflow i hover⟩)

/-- Settles O23: `set_count` reschedules an armed timer on a byte that is not 0, and keeps `next` otherwise. -/
theorem countPokesFollowSetCount : Obligations.CountPokesFollowSetCount :=
  ⟨fun s i => countPoked_setCount s (baseTimer i), fun s c => countPoked_setCount s (audioTimer c)⟩

end Sys2Proof.Proofs
end

section
/-! The count-down step, the clock tick and the cascade pulse (40_countdown.md sections 4 and 5, rules R144, R145, R150 and
R151). -/

namespace Sys2Proof.Proofs

open Sys2Proof Sys2Proof.Machine

/-! ## The count-down step (rule R150) -/

/-- The mask bit of base timer `k` as a number. -/
theorem interruptBit_eq (k : Fin 8) (ie : Bool) : interruptBit k ie = if ie then BitVec.ofNat 8 (2 ^ k.val) else 0 := by
  decide +revert

/-- A timer at its zero event that does not reload keeps the count 0. -/
theorem zeroEvent_of_count_eq_zero {T : Timer} (h : T.count = 0) :
    T.zeroEvent = { T with
      count := if T.reload then T.backup else 0
      next := if T.reload then T.next else never
      ctlb := T.ctlb ||| 0x09 } := by
  rw [Timer.zeroEvent, h, setDoneBout]

section
variable {cfg : Config} {i : Fin 12} {b : Block}

theorem countDown_of_base {k : Fin 8} (h : (b.timer i).count = 0) (hk : kind i = .base k) :
    countDown cfg i b =
      ⟨(b.setTimer i (b.timer i).zeroEvent).setTrig k true, true, interruptBit k (b.timer i).ie⟩ := by
  rw [countDown, if_pos h, zeroStep, hk]

theorem countDown_of_audio {c : Fin 4} (h : (b.timer i).count = 0) (hc : kind i = .audio c) :
    countDown cfg i b = ⟨lfsrStep cfg c (b.setTimer i (b.timer i).zeroEvent), true, 0⟩ := by
  rw [countDown, if_pos h, zeroStep, hc]

theorem countDown_of_count_ne_zero (h : (b.timer i).count ≠ 0) :
    countDown cfg i b = StepOut.quiet (b.setTimer i (b.timer i).decremented) :=
  if_neg h

/-- `next` after a count-down step: NEVER at the end of a one-shot, as it was otherwise. -/
theorem next_countDown (cfg : Config) (i : Fin 12) (b : Block) :
    ((countDown cfg i b).block.timer i).next =
      if (b.timer i).count = 0 ∧ (b.timer i).reload = false then never else (b.timer i).next := by
  have hzero : (b.timer i).zeroEvent.next = if (b.timer i).reload = false then never else (b.timer i).next := by
    unfold Timer.zeroEvent
    cases (b.timer i).reload <;> rfl
  rcases countDown_cases cfg i b with ⟨h, e⟩ | ⟨k, h, -, e⟩ | ⟨c, h, hc, e⟩ <;> rw [e]
  · rw [if_neg (fun hz => h hz.1)]
    simp [StepOut.quiet, Timer.decremented]
  · simpa [h] using hzero
  · obtain rfl := eq_channelTimer_of_kind hc
    simpa [h, timer_lfsrStep_self, Block.steppedTimer] using hzero

theorem count_countDown_of_ne_zero (h : (b.timer i).count ≠ 0) :
    ((countDown cfg i b).block.timer i).count = (b.timer i).count - 1 := by
  simp [countDown_of_count_ne_zero h, StepOut.quiet, Timer.decremented]

theorem count_afterSteps (cfg : Config) (i : Fin 12) (b : Block) {k : Nat} (hk : k ≤ (b.timer i).count.toNat) :
    ((afterSteps cfg i k b).timer i).count.toNat = (b.timer i).count.toNat - k := by
  induction k with
  | zero => rfl
  | succ k ih =>
    have ih := ih (by omega)
    have hne : ((afterSteps cfg i k b).timer i).count ≠ 0 := by bv_omega
    rw [afterSteps, count_countDown_of_ne_zero hne]
    bv_omega

end

/-- Settles O29: the two kinds of zero event, and the plain decrement. -/
theorem countDownFollowsTheRule : Obligations.CountDownFollowsTheRule := by
  intro cfg i b T Z
  have hZ (h : T.count = 0) : T.zeroEvent = Z := zeroEvent_of_count_eq_zero h
  refine ⟨fun k h hi => ?_, fun c h hi => ?_, fun h => countDown_of_count_ne_zero h⟩
  · rw [countDown_of_base h (hi ▸ kind_baseOf k), interruptBit_eq, hZ h]
  · rw [countDown_of_audio h (hi ▸ kind_channelTimer c), hZ h]

/-- Settles O33: the count goes down by one on each of the first N steps, by induction on the steps made. -/
theorem zeroEventComesOnStepCountPlusOne : Obligations.ZeroEventComesOnStepCountPlusOne := by
  intro cfg i b k hk
  have hcount := count_afterSteps cfg i b hk
  refine ⟨hcount, Bool.eq_iff_iff.2 ?_⟩
  rw [countDown_zero, decide_eq_true_iff]
  bv_omega

/-! ## The fast path (rule R171) -/

theorem fastPath_iff {b : Block} {i : Fin 12} :
    b.fastPath i = true ↔ ∃ c, kind i = .audio c ∧ b.disabled c = true := by
  unfold Block.fastPath
  cases kind i <;> simp

/-! ## The clock tick (rule R144) -/

section
variable {cfg : Config} {i : Fin 12} {t : Tick} {b : Block}

theorem clockTick_of_frozen (h : b.fastPath i = true ∧ cfg.fastpathTick = .frozen) :
    clockTick cfg i t b = .ok (StepOut.quiet b) := by
  simp [clockTick, h]

theorem clockTick_of_idle (hnot : ¬ (b.fastPath i = true ∧ cfg.fastpathTick = .frozen))
    (h : (b.timer i).cen = false ∨ (b.timer i).linked = true ∨ b.fastPath i = true) :
    clockTick cfg i t b = .ok (StepOut.quiet (b.setTimer i ((b.timer i).ticked never))) := by
  rw [clockTick, if_neg (by simpa using hnot), if_pos (by simpa [or_assoc] using h)]

theorem clockTick_of_counting (hfast : b.fastPath i = false) (hcen : (b.timer i).cen = true)
    (hlinked : (b.timer i).linked = false) :
    clockTick cfg i t b =
      (reschedule cfg i (b.timer i).ctla t).map fun n => countDown cfg i (b.setTimer i ((b.timer i).ticked (some n))) := by
  rw [clockTick, if_neg (by simp [hfast]), if_neg (by simp [hfast, hcen, hlinked])]
  cases reschedule cfg i (b.timer i).ctla t <;> rfl

end

/-- Settles O27: the three branches of `tick`, the last with the two outcomes of its reschedule. -/
theorem clockTickFollowsTheRule : Obligations.ClockTickFollowsTheRule := by
  intro cfg i t b T silenced
  have hfast : b.fastPath i = true ↔ silenced := fastPath_iff
  have hfast' (h : ¬ silenced) : b.fastPath i = false := Bool.eq_false_iff.2 (mt hfast.1 h)
  refine ⟨fun hs hf => ?_, fun hnot h => ?_, fun hs hcen hlinked hfits => ?_, fun hs hcen hlinked hover => ?_⟩
  · exact clockTick_of_frozen ⟨hfast.2 hs, hf⟩
  · rw [← hfast] at hnot h
    exact clockTick_of_idle hnot h
  · rw [clockTick_of_counting (hfast' hs) hcen hlinked, reschedule_of_fits i hfits]
    rfl
  · rw [clockTick_of_counting (hfast' hs) hcen hlinked, reschedule_of_overflow i hover]
    rfl

/-! ## The cascade pulse (rule R145) -/

/-- Settles O28: `acceptsPulse` is the rule's condition, and `tick_linked` branches on it alone. -/
theorem cascadePulseFollowsTheRule : Obligations.CascadePulseFollowsTheRule := by
  intro cfg j b T silenced gate
  have hfast : b.fastPath j = true ↔ silenced := fastPath_iff
  have hgate : gateOpen cfg T = true ↔ gate := by
    unfold gateOpen gate
    cases cfg.linkedGate <;> simp [or_iff_not_imp_left]
  have haccepts : acceptsPulse cfg j b = true ↔ T.linked = true ∧ ¬ silenced ∧ gate := by
    rw [acceptsPulse, Bool.and_eq_true, Bool.and_eq_true, Bool.not_eq_true', Bool.eq_false_iff, Ne, hfast, hgate, and_assoc]
  rw [← haccepts]
  exact ⟨fun h => if_pos h, fun h => if_neg h⟩

end Sys2Proof.Proofs
end

section
/-! TICKALL and one timer (42_orchestrator.md rule R190): before its own turn and after it, only cascade pulses can reach a timer,
and those count down linked timers alone. So a timer that is not linked meets its turn as TICKALL found it, and keeps what its
turn left (40_countdown.md section 5, rule R152). -/

namespace Sys2Proof.Proofs

open Sys2Proof Sys2Proof.Machine

/-! ## What belongs to one timer -/

section
variable {i j : Fin 12} {t : Tick} {a b c : Block}

theorem SameOwn.refl (i : Fin 12) (b : Block) : Block.SameOwn i b b :=
  ⟨rfl, fun _ _ => rfl, fun _ _ => rfl⟩

theorem SameOwn.trans (h : Block.SameOwn i a b) (g : Block.SameOwn i b c) : Block.SameOwn i a c := by
  obtain ⟨htimer, hsettings, htrig⟩ := h
  obtain ⟨gtimer, gsettings, gtrig⟩ := g
  exact ⟨gtimer.trans htimer, fun d hd => (gsettings d hd).trans (hsettings d hd),
    fun k hk => (gtrig k hk).trans (htrig k hk)⟩

theorem sameOwn_setNow (i : Fin 12) (b : Block) (t : Tick) : Block.SameOwn i b (b.setNow t) :=
  ⟨rfl, fun _ _ => rfl, fun _ _ => rfl⟩

/-- What touches timer `j` alone leaves what belongs to any other timer. -/
theorem sameOwn_of_onlyOwn (h : Block.OnlyOwn j a b) (hij : i ≠ j) : Block.SameOwn i a b := by
  obtain ⟨htimer, hsettings, htrig, -⟩ := h
  exact ⟨htimer i hij, fun d hd => hsettings d (hd ▸ hij), fun k hk => htrig k fun e => hij (hk.symm.trans e)⟩

theorem fastPath_of_sameOwn (h : Block.SameOwn i a b) : b.fastPath i = a.fastPath i := by
  obtain ⟨htimer, hsettings, -⟩ := h
  unfold Block.fastPath
  cases hk : kind i with
  | base k => rfl
  | audio d =>
    obtain rfl := eq_channelTimer_of_kind hk
    simp only [Block.disabled, htimer, hsettings d rfl]

theorem clocked_iff :
    b.clocked t i = true ↔
      b.dueAt t i = true ∧ (b.timer i).cen = true ∧ (b.timer i).linked = false ∧ b.fastPath i = false := by
  simp [Block.clocked, and_assoc]

theorem linked_of_clocked (h : b.clocked t i = true) : (b.timer i).linked = false := by
  obtain ⟨-, -, hlinked, -⟩ := clocked_iff.1 h
  exact hlinked

theorem clocked_of_sameOwn (h : Block.SameOwn i a b) : b.clocked t i = a.clocked t i := by
  have hfast := fastPath_of_sameOwn h
  obtain ⟨htimer, -, -⟩ := h
  simp only [Block.clocked, Block.dueAt, hfast, htimer]

/-! ## Untouched but by pulses -/

/-- What belongs to timer `i` is the same in both blocks, or the timer is linked in both, so that pulses may have counted it
down (rule R145). -/
def OnlyPulsed (i : Fin 12) (b b' : Block) : Prop :=
  Block.SameOwn i b b' ∨ ((b.timer i).linked = true ∧ (b'.timer i).linked = true)

theorem OnlyPulsed.refl (i : Fin 12) (b : Block) : OnlyPulsed i b b :=
  .inl (SameOwn.refl i b)

theorem OnlyPulsed.trans (h : OnlyPulsed i a b) (g : OnlyPulsed i b c) : OnlyPulsed i a c := by
  obtain h | ⟨ha, hb⟩ := h <;> obtain g | ⟨hb', hc⟩ := g
  · exact .inl (SameOwn.trans h g)
  · exact .inr ⟨h.1 ▸ hb', hc⟩
  · exact .inr ⟨ha, g.1 ▸ hb⟩
  · exact .inr ⟨ha, hc⟩

theorem OnlyPulsed.sameOwn (h : OnlyPulsed i a b) (ha : (a.timer i).linked = false) : Block.SameOwn i a b :=
  h.resolve_right fun hlinked => Bool.eq_false_iff.1 ha hlinked.1

theorem OnlyPulsed.clocked (h : OnlyPulsed i a b) : b.clocked t i = a.clocked t i := by
  obtain h | ⟨ha, hb⟩ := h
  · exact clocked_of_sameOwn h
  · simp [Block.clocked, ha, hb]

end

section
variable {cfg : Config}

theorem linked_countDown (cfg : Config) (i : Fin 12) (b : Block) :
    ((countDown cfg i b).block.timer i).linked = (b.timer i).linked := by
  rw [Timer.linked, (timer_countDown_self cfg i b).2, Timer.linked]

theorem linked_of_acceptsPulse {j : Fin 12} {b : Block} (h : acceptsPulse cfg j b = true) : (b.timer j).linked = true := by
  rw [acceptsPulse, Bool.and_assoc, Bool.and_eq_true] at h
  exact h.1

theorem onlyPulsed_tickLinked (cfg : Config) (i j : Fin 12) (b : Block) :
    OnlyPulsed i b (tickLinked cfg j b).block := by
  rcases eq_or_ne i j with rfl | hij
  · rcases tickLinked_cases cfg i b with ⟨haccepts, e⟩ | ⟨-, e⟩ <;> rw [e]
    · have hlinked := linked_of_acceptsPulse haccepts
      exact .inr ⟨hlinked, (linked_countDown cfg i b).trans hlinked⟩
    · exact .refl i b
  · exact .inl (sameOwn_of_onlyOwn (tickLinked_onlyOwn cfg j b) hij)

theorem onlyPulsed_cascade (cfg : Config) (i : Fin 12) (fuel : Nat) (j : Fin 12) (w : Sweep) :
    OnlyPulsed i w.block (cascade cfg fuel j w).block :=
  cascade_induct (fun v => OnlyPulsed i w.block v.block) (fun k v hv => hv.trans (onlyPulsed_tickLinked cfg i k v.block))
    fuel j w (.refl i w.block)

end

/-! ## One turn of the loop -/

section
variable {cfg : Config} {i j : Fin 12} {t : Tick} {b : Block} {w w' : Sweep}

/-- A turn that completes skips its timer, or clocks it and follows its zero event with pulses. -/
theorem sweepOne_eq_ok (h : sweepOne cfg t j w = .ok w') :
    (w.block.dueAt t j = false ∧ w' = w) ∨
      ∃ o, clockTick cfg j t w.block = .ok o ∧ ∀ i, OnlyPulsed i o.block w'.block := by
  unfold sweepOne at h
  split at h
  case isFalse hdue => exact .inl ⟨Bool.eq_false_iff.2 hdue, (Except.ok.inj h).symm⟩
  case isTrue =>
    split at h
    · cases h
    · rename_i o ho
      obtain rfl := Except.ok.inj h
      refine .inr ⟨o, ho, fun i => ?_⟩
      split
      · exact onlyPulsed_cascade cfg i 12 j (w.absorb j o)
      · exact .refl i o.block

theorem onlyPulsed_sweepOne (hij : i ≠ j) (h : sweepOne cfg t j w = .ok w') : OnlyPulsed i w.block w'.block := by
  obtain ⟨-, rfl⟩ | ⟨o, ho, hpulsed⟩ := sweepOne_eq_ok h
  · exact .refl i _
  · exact OnlyPulsed.trans (.inl (sameOwn_of_onlyOwn (clockTick_onlyOwn ho) hij)) (hpulsed i)

/-- A clock tick completes, unless its timer counts and the reschedule does not fit. -/
theorem clockTick_completes
    (hfits : (b.timer i).cen = true → (b.timer i).linked = false → b.fastPath i = false →
      clockedAt cfg (b.timer i).ctla t < 2 ^ 64) :
    ∃ o, clockTick cfg i t b = .ok o := by
  by_cases hfrozen : b.fastPath i = true ∧ cfg.fastpathTick = .frozen
  · exact ⟨_, clockTick_of_frozen hfrozen⟩
  by_cases hidle : (b.timer i).cen = false ∨ (b.timer i).linked = true ∨ b.fastPath i = true
  · exact ⟨_, clockTick_of_idle hfrozen hidle⟩
  simp only [not_or, Bool.not_eq_true, Bool.not_eq_false] at hidle
  obtain ⟨hcen, hlinked, hfast⟩ := hidle
  rw [clockTick_of_counting hfast hcen hlinked, reschedule_of_fits i (hfits hcen hlinked hfast)]
  exact ⟨_, rfl⟩

theorem sweepOne_completes (hfits : w.block.clocked t j = true → clockedAt cfg (w.block.timer j).ctla t < 2 ^ 64) :
    ∃ w', sweepOne cfg t j w = .ok w' := by
  unfold sweepOne
  split
  case isFalse => exact ⟨w, rfl⟩
  case isTrue hdue =>
    obtain ⟨o, ho⟩ := clockTick_completes fun hcen hlinked hfast => hfits (clocked_iff.2 ⟨hdue, hcen, hlinked, hfast⟩)
    rw [ho]
    exact ⟨_, rfl⟩

end

/-! ## The loop -/

section
variable {cfg : Config} {i : Fin 12} {t : Tick} {b : Block} {ids : List (Fin 12)} {w w' : Sweep}

theorem sweep_cons_eq_ok {j : Fin 12} :
    sweep cfg t (j :: ids) w = .ok w' ↔ ∃ v, sweepOne cfg t j w = .ok v ∧ sweep cfg t ids v = .ok w' := by
  rw [sweep]
  cases sweepOne cfg t j w <;> simp

theorem onlyPulsed_sweep (hi : i ∉ ids) (h : sweep cfg t ids w = .ok w') : OnlyPulsed i w.block w'.block := by
  induction ids generalizing w with
  | nil =>
    obtain rfl := Except.ok.inj h
    exact .refl i _
  | cons j ids ih =>
    obtain ⟨hij, hi⟩ := not_or.1 (mt List.mem_cons.2 hi)
    obtain ⟨v, hv, h⟩ := sweep_cons_eq_ok.1 h
    exact (onlyPulsed_sweepOne hij hv).trans (ih hi h)

/-- The loop completes over timers that only pulses have reached so far, where the reschedule of each that is clocked fits. -/
theorem sweep_completes (hnodup : ids.Nodup) (hpulsed : ∀ j ∈ ids, OnlyPulsed j b w.block)
    (hfits : ∀ j ∈ ids, b.clocked t j = true → clockedAt cfg (b.timer j).ctla t < 2 ^ 64) :
    ∃ w', sweep cfg t ids w = .ok w' := by
  induction ids generalizing w with
  | nil => exact ⟨w, rfl⟩
  | cons j ids ih =>
    obtain ⟨hj, hnodup⟩ := List.nodup_cons.1 hnodup
    obtain ⟨hpj, hpulsed⟩ := List.forall_mem_cons.1 hpulsed
    obtain ⟨hfj, hfits⟩ := List.forall_mem_cons.1 hfits
    obtain ⟨v, hv⟩ : ∃ v, sweepOne cfg t j w = .ok v := sweepOne_completes fun hc => by
      rw [hpj.clocked] at hc
      obtain ⟨htimer, -, -⟩ := hpj.sameOwn (linked_of_clocked hc)
      exact htimer ▸ hfj hc
    obtain ⟨w', hw'⟩ := ih hnodup
      (fun k hk => (hpulsed k hk).trans (onlyPulsed_sweepOne (ne_of_mem_of_not_mem hk hj) hv)) hfits
    exact ⟨w', sweep_cons_eq_ok.2 ⟨v, hv, hw'⟩⟩

/-- The turn of a timer the clock counts down: its clock tick finds what belongs to the timer as the loop's start had it, and
after that only pulses reach the timer. -/
theorem exists_turn_of_clocked (hnodup : ids.Nodup) (hi : i ∈ ids) (hc : w.block.clocked t i = true)
    (h : sweep cfg t ids w = .ok w') :
    ∃ b o, Block.SameOwn i w.block b ∧ clockTick cfg i t b = .ok o ∧ OnlyPulsed i o.block w'.block := by
  induction ids generalizing w with
  | nil => cases hi
  | cons j ids ih =>
    obtain ⟨hj, hnodup⟩ := List.nodup_cons.1 hnodup
    obtain ⟨v, hv, hrest⟩ := sweep_cons_eq_ok.1 h
    rcases eq_or_ne i j with rfl | hij
    · obtain ⟨hskip, -⟩ | ⟨o, ho, hpulsed⟩ := sweepOne_eq_ok hv
      · obtain ⟨hdue, -⟩ := clocked_iff.1 hc
        exact absurd hdue (Bool.eq_false_iff.1 hskip)
      · exact ⟨w.block, o, SameOwn.refl i _, ho, (hpulsed i).trans (onlyPulsed_sweep hj hrest)⟩
    · have hown := (onlyPulsed_sweepOne hij hv).sameOwn (linked_of_clocked hc)
      obtain ⟨b, o, hb, ho, hpulsed⟩ :=
        ih hnodup ((List.mem_cons.1 hi).resolve_left hij) ((clocked_of_sameOwn hown).trans hc) hrest
      exact ⟨b, o, SameOwn.trans hown hb, ho, hpulsed⟩

end

/-! ## TICKALL -/

theorem nodup_timerIds : timerIds.Nodup := by
  decide

theorem mem_timerIds (i : Fin 12) : i ∈ timerIds := by
  decide +revert

section
variable {cfg : Config} {i : Fin 12} {t : Tick} {b : Block}

theorem clockedTimer_of_clocked (hc : b.clocked t i = true) :
    Block.clockedTimer cfg b t i = (b.timer i).ticked (some (BitVec.ofNat 64 (clockedAt cfg (b.timer i).ctla t))) :=
  if_pos hc

theorem clockTick_of_clocked {o : StepOut} (hc : b.clocked t i = true) (ho : clockTick cfg i t b = .ok o) :
    o = countDown cfg i (b.setTimer i (Block.clockedTimer cfg b t i)) := by
  obtain ⟨-, hcen, hlinked, hfast⟩ := clocked_iff.1 hc
  rw [clockTick_of_counting hfast hcen hlinked] at ho
  cases hr : reschedule cfg i (b.timer i).ctla t with
  | error f => simp [hr, Except.map] at ho
  | ok n =>
    obtain ⟨-, rfl⟩ := (reschedule_eq_ok i).1 hr
    rw [hr] at ho
    rw [clockedTimer_of_clocked hc]
    exact (Except.ok.inj ho).symm

theorem tickAll_completes (h : Block.TickSafe cfg b t) : ∃ w, tickAll cfg t b = .ok w := by
  obtain ⟨ht, hfits⟩ := h
  obtain ⟨w, hw⟩ := sweep_completes (b := b) (w := ⟨b.setNow t, 0, false⟩) nodup_timerIds
    (fun j _ => .inl (sameOwn_setNow j b t)) fun j _ => hfits j
  exact ⟨w, tickAll_eq_ok.2 ⟨ht, hw⟩⟩

theorem next_tickAll_of_clocked {w : Sweep} (hc : b.clocked t i = true) (h : tickAll cfg t b = .ok w) :
    (w.block.timer i).next =
      if (b.timer i).count = 0 ∧ (b.timer i).reload = false then never
      else some (BitVec.ofNat 64 (clockedAt cfg (b.timer i).ctla t)) := by
  obtain ⟨-, hsweep⟩ := tickAll_eq_ok.1 h
  obtain ⟨b', o, hown, ho, hpulsed⟩ := exists_turn_of_clocked nodup_timerIds (mem_timerIds i) hc hsweep
  have hc' : b'.clocked t i = true := (clocked_of_sameOwn hown).trans hc
  obtain rfl := clockTick_of_clocked hc' ho
  have hlinked : ((b'.setTimer i (Block.clockedTimer cfg b' t i)).timer i).linked = false := by
    rw [timer_setTimer_self, clockedTimer_of_clocked hc']
    exact linked_of_clocked hc'
  obtain ⟨hleft, -, -⟩ := hpulsed.sameOwn ((linked_countDown cfg i _).trans hlinked)
  obtain ⟨hfound, -, -⟩ := hown
  rw [hleft, next_countDown, timer_setTimer_self, clockedTimer_of_clocked hc', hfound]
  rfl

end

/-- Settles O41: the clocked timer is rescheduled at its turn, and nothing reaches it after that. The invariant is not needed: a
linked timer is not clocked, whatever its `next`. -/
theorem clockedTimerIsRescheduledFromTheTick : Obligations.ClockedTimerIsRescheduledFromTheTick := by
  intro s t i _ hsafe hc
  obtain ⟨w, hw⟩ := tickAll_completes hsafe
  exact ⟨_, execTickAll_eq_next.2 ⟨w, hw, rfl⟩, next_tickAll_of_clocked hc hw⟩

end Sys2Proof.Proofs
end

section
/-! LFSR audio synthesis (41_audio.md sections 2 and 3, rules R170 to R176): the bits of the tap mask, the bits of the LFSR after a
step, and the new sample as an exact integer. -/

namespace Sys2Proof.Proofs

open Sys2Proof Sys2Proof.Machine

/-! ## The tap mask (rule R170) -/

section
variable {k : Nat}

theorem getLsbD_zext_low (feedback : Byte) (hk : k < 12) :
    ((feedback.extractLsb' 0 6).setWidth 12).getLsbD k = (decide (k < 6) && feedback.getLsbD k) := by
  simp [hk]

/-- Feedback bits 7 and 6 stand at positions 11 and 10. -/
theorem getLsbD_zext_high (feedback : Byte) (hk : k < 12) :
    ((feedback.extractLsb' 6 2).setWidth 12 <<< 10).getLsbD k =
      (k == 10 && feedback.getLsbD 6 || k == 11 && feedback.getLsbD 7) := by
  obtain hlow | rfl | rfl : k < 10 ∨ k = 10 ∨ k = 11 := by omega
  · have h10 : k ≠ 10 := by omega
    have h11 : k ≠ 11 := by omega
    simp [hlow, h10, h11]
  · simp
  · simp

/-- A single bit zero-extended and shifted stands at the shift's position. -/
theorem getLsbD_zext_ofBool_shift (v : Bool) (p : Nat) (hk : k < 12) :
    ((BitVec.ofBool v).setWidth 12 <<< p).getLsbD k = (k == p && v) := by
  rcases lt_trichotomy k p with h | rfl | h
  · simp [h, h.ne]
  · simp [hk]
  · have hne : k - p ≠ 0 := by omega
    simp [BitVec.getLsbD_ofBool, h.ne', hne]

end

/-- Settles O32: the three parts of the mask, bit by bit. -/
theorem tapMaskBits : Obligations.TapMaskBits := by
  intro cfg c b k hk
  rw [Block.taps, tapsOf, BitVec.getLsbD_or, BitVec.getLsbD_or, getLsbD_zext_low _ hk, getLsbD_zext_high _ hk,
    getLsbD_zext_ofBool_shift _ _ hk, ← Bool.or_assoc, Timer.fb7]

/-! ## The inserted bit and the shift (rules R172 to R174) -/

/-- The inserted bit is set exactly where the tapped bits have even parity. -/
theorem insertedBit_eq (taps lfsr : U12) : insertedBit taps lfsr = decide (popcount (taps &&& lfsr) % 2 = 0) := by
  rw [insertedBit]
  rcases Nat.mod_two_eq_zero_or_one (popcount (taps &&& lfsr)) with h | h <;> rw [h] <;> rfl

theorem getLsbD_shiftLfsr_zero (lfsr : U12) (nb : Bool) : (shiftLfsr lfsr nb).getLsbD 0 = nb := by
  simp [shiftLfsr]

theorem getLsbD_shiftLfsr_succ (lfsr : U12) (nb : Bool) {k : Nat} (hk : k < 11) :
    (shiftLfsr lfsr nb).getLsbD (k + 1) = lfsr.getLsbD k := by
  have hsucc : k + 1 < 12 := by omega
  have hold : k < 12 := by omega
  simp [shiftLfsr, hsucc, hold]

theorem lfsrOf_append (hi lo : BitVec 4) (shiftLo : Byte) : lfsrOf (hi ++ lo) shiftLo = hi ++ shiftLo := by
  rw [lfsrOf, BitVec.extractLsb'_append_eq_left]

/-- The two registers hold the LFSR they are written from, whatever ControlB's low nibble is. -/
theorem lfsrOf_withLfsrNibble (ctlb : Byte) (lfsr : U12) :
    lfsrOf (withLfsrNibble ctlb lfsr) (lfsr.extractLsb' 0 8) = lfsr := by
  rw [withLfsrNibble, lfsrOf_append, ← lfsrOf_append _ 0#4, lfsrOf_seed]

theorem statusBits_withLfsrNibble (ctlb : Byte) (lfsr : U12) :
    (withLfsrNibble ctlb lfsr).extractLsb' 0 4 = ctlb.extractLsb' 0 4 :=
  BitVec.extractLsb'_append_eq_right

section
variable (cfg : Config) (c : Fin 4) (b : Block)

theorem lfsr_lfsrStep : (lfsrStep cfg c b).lfsr c = Block.nextLfsr cfg b c := by
  rw [Block.lfsr, timer_lfsrStep_self, settings_lfsrStep_self]
  exact lfsrOf_withLfsrNibble _ _

theorem getLsbD_lfsr_lfsrStep_zero : ((lfsrStep cfg c b).lfsr c).getLsbD 0 = Block.nextBit cfg b c := by
  rw [lfsr_lfsrStep, Block.nextLfsr, getLsbD_shiftLfsr_zero]

end

/-- Settles O30: the two registers hold the shifted LFSR with the inverted parity at bit 0. -/
theorem lfsrStepShiftsInInvertedParity : Obligations.LfsrStepShiftsInInvertedParity := by
  intro cfg c b
  refine ⟨fun k hk => ?_, ?_, ?_, ⟨_, timer_lfsrStep_self cfg c b⟩, ⟨_, _, settings_lfsrStep_self cfg c b⟩,
    lfsrStep_onlyOwn cfg c b⟩
  · rw [lfsr_lfsrStep, Block.nextLfsr, getLsbD_shiftLfsr_succ _ _ hk]
  · rw [getLsbD_lfsr_lfsrStep_zero, Block.nextBit, insertedBit_eq]
  · rw [timer_lfsrStep_self]
    exact statusBits_withLfsrNibble _ _

/-! ## The output sample (rules R15, R176) -/

/-- Saturation is the clamp of the exact integer. -/
theorem toInt_sat8 (n : Int) : (sat8 n).toInt = max (-128) (min 127 n) := by
  unfold sat8
  split
  case isTrue hlow =>
    have : (BitVec.ofInt 8 (-128)).toInt = -128 := by decide
    omega
  case isFalse hlow =>
    split
    case isTrue hhigh =>
      have : (BitVec.ofInt 8 127).toInt = 127 := by decide
      omega
    case isFalse hhigh =>
      rw [BitVec.toInt_ofInt_eq_self (by decide) (by omega) (by omega)]
      omega

/-- The output goes up on the bit value that OUTPUT_SENSE names. -/
theorem outputUp_iff {cfg : Config} {nb : Bool} :
    outputUp cfg nb = true ↔ nb = match cfg.outputSense with | .literal => false | .inverted => true := by
  unfold outputUp
  cases cfg.outputSense <;> simp

theorem output_lfsrStep (cfg : Config) (c : Fin 4) (b : Block) :
    ((lfsrStep cfg c b).settings c).output =
      outputAfter cfg (b.timer (channelTimer c)).integ (b.settings c).volume (b.settings c).output (Block.nextBit cfg b c) := by
  rw [settings_lfsrStep_self, Block.steppedSettings]

/-- Settles O31: the four cases of the new sample. -/
theorem outputFollowsTheRule : Obligations.OutputFollowsTheRule := by
  intro cfg c b A clamp up new
  have hup : up ↔ outputUp cfg (Block.nextBit cfg b c) = true :=
    (Eq.congr_left (getLsbD_lfsr_lfsrStep_zero cfg c b)).trans outputUp_iff.symm
  have hnew : new = (outputAfter cfg (b.timer (channelTimer c)).integ A.volume A.output (Block.nextBit cfg b c)).toInt :=
    congrArg BitVec.toInt (output_lfsrStep cfg c b)
  rw [hup, hnew, outputAfter]
  refine ⟨fun hinteg hgo => ?_, fun hinteg hgo => ?_, fun hinteg hgo => ?_, fun hinteg hgo => ?_⟩
  · rw [if_pos hinteg, if_pos hgo, sadd8, toInt_sat8]
  · rw [if_pos hinteg, if_neg hgo, ssub8, toInt_sat8]
  · rw [hinteg, if_neg Bool.false_ne_true, if_pos hgo]
  · rw [hinteg, if_neg Bool.false_ne_true, if_neg hgo, sneg8, toInt_sat8]

end Sys2Proof.Proofs
end

section
/-! An audio timer on the fast path (41_audio.md rule R177): its clock tick counts nothing and no pulse counts it, so TICKALL makes
of it what the clock alone does (40_countdown.md rules R144, R145). -/

namespace Sys2Proof.Proofs

open Sys2Proof Sys2Proof.Machine

section
variable {cfg : Config} {i j : Fin 12} {t : Tick} {b b' : Block} {w w' : Sweep}

/-! ## The clock and the pulses -/

/-- What the clock alone makes of a timer on the fast path: idled where it is due under IDLE, else as it was. -/
theorem clockedTimer_of_fastPath (hfast : b.fastPath i = true) :
    Block.clockedTimer cfg b t i =
      if b.dueAt t i = true ∧ cfg.fastpathTick = .idle then (b.timer i).ticked never else b.timer i := by
  cases hmode : cfg.fastpathTick <;> simp [Block.clockedTimer, Block.idled, Block.clocked, hfast, hmode]

theorem clockedTimer_of_sameOwn (h : Block.SameOwn i b b') :
    Block.clockedTimer cfg b' t i = Block.clockedTimer cfg b t i := by
  have hclocked := clocked_of_sameOwn (t := t) h
  have hfast := fastPath_of_sameOwn h
  obtain ⟨htimer, -, -⟩ := h
  have hidled : Block.idled cfg b' t i = Block.idled cfg b t i := by
    simp only [Block.idled, Block.dueAt, hclocked, hfast, htimer]
  rw [Block.clockedTimer, hclocked, hidled, htimer, Block.clockedTimer]

/-- The clock leaves what the fast-path flag is made of (rule R171). -/
theorem fastPath_setTimer_clockedTimer :
    (b.setTimer i (Block.clockedTimer cfg b t i)).fastPath i = b.fastPath i := by
  have hbackup : (Block.clockedTimer cfg b t i).backup = (b.timer i).backup := by
    unfold Block.clockedTimer
    split_ifs <;> rfl
  unfold Block.fastPath
  cases hk : kind i with
  | base k => rfl
  | audio c =>
    obtain rfl := eq_channelTimer_of_kind hk
    simp [Block.disabled, hbackup]

theorem sameOwn_setTimer (h : Block.SameOwn i b b') (T : Timer) : Block.SameOwn i (b.setTimer i T) (b'.setTimer i T) := by
  obtain ⟨-, hsettings, htrig⟩ := h
  exact ⟨by simp, hsettings, htrig⟩

theorem sameOwn_setTimer_self (i : Fin 12) (b : Block) : Block.SameOwn i (b.setTimer i (b.timer i)) b :=
  ⟨(timer_setTimer_self b i _).symm, fun _ _ => rfl, fun _ _ => rfl⟩

/-- The clock tick of a timer on the fast path does the clock's part alone, and reports nothing. -/
theorem clockTick_of_fastPath {o : StepOut} (hfast : b.fastPath i = true) (hdue : b.dueAt t i = true)
    (h : clockTick cfg i t b = .ok o) :
    o.zero = false ∧ Block.SameOwn i (b.setTimer i (Block.clockedTimer cfg b t i)) o.block := by
  rw [clockedTimer_of_fastPath hfast]
  cases hmode : cfg.fastpathTick with
  | frozen =>
    rw [clockTick_of_frozen ⟨hfast, hmode⟩] at h
    obtain rfl := Except.ok.inj h
    rw [if_neg (by simp)]
    exact ⟨rfl, sameOwn_setTimer_self i b⟩
  | idle =>
    rw [clockTick_of_idle (by simp [hmode]) (.inr (.inr hfast))] at h
    obtain rfl := Except.ok.inj h
    rw [if_pos ⟨hdue, rfl⟩]
    exact ⟨rfl, SameOwn.refl i _⟩

theorem sameOwn_tickLinked_of_fastPath (hfast : b.fastPath i = true) (j : Fin 12) :
    Block.SameOwn i b (tickLinked cfg j b).block := by
  rcases eq_or_ne i j with rfl | hij
  · have hrefused : acceptsPulse cfg i b = false := by simp [acceptsPulse, hfast]
    rw [tickLinked, hrefused]
    exact SameOwn.refl i b
  · exact sameOwn_of_onlyOwn (tickLinked_onlyOwn cfg j b) hij

theorem sameOwn_cascade_of_fastPath (hfast : w.block.fastPath i = true) (fuel : Nat) (j : Fin 12) :
    Block.SameOwn i w.block (cascade cfg fuel j w).block :=
  cascade_induct (fun v => Block.SameOwn i w.block v.block)
    (fun k _ hv => SameOwn.trans hv (sameOwn_tickLinked_of_fastPath ((fastPath_of_sameOwn hv).trans hfast) k))
    fuel j w (SameOwn.refl i w.block)

/-! ## The loop -/

/-- Everything a turn that completes can do: skip its timer, or clock it, with a cascade only after a zero event. -/
theorem sweepOne_cases (h : sweepOne cfg t j w = .ok w') :
    (w.block.dueAt t j = false ∧ w' = w) ∨
      ∃ o, w.block.dueAt t j = true ∧ clockTick cfg j t w.block = .ok o ∧
        w' = if o.zero then cascade cfg 12 j (w.absorb j o) else w.absorb j o := by
  unfold sweepOne at h
  split at h
  case isFalse hdue => exact .inl ⟨Bool.eq_false_iff.2 hdue, (Except.ok.inj h).symm⟩
  case isTrue hdue =>
    split at h
    · cases h
    · rename_i o ho
      exact .inr ⟨o, hdue, ho, (Except.ok.inj h).symm⟩

/-- The turn of another timer leaves what belongs to a timer on the fast path. -/
theorem sameOwn_sweepOne_of_fastPath (hfast : w.block.fastPath i = true) (hij : i ≠ j) (h : sweepOne cfg t j w = .ok w') :
    Block.SameOwn i w.block w'.block := by
  obtain ⟨-, rfl⟩ | ⟨o, -, ho, rfl⟩ := sweepOne_cases h
  · exact SameOwn.refl i _
  · have hown : Block.SameOwn i w.block o.block := sameOwn_of_onlyOwn (clockTick_onlyOwn ho) hij
    split
    · exact SameOwn.trans hown (sameOwn_cascade_of_fastPath ((fastPath_of_sameOwn hown).trans hfast) 12 j)
    · exact hown

/-- The timer's own turn does the clock's part of it. -/
theorem clockedTimer_sweepOne_of_fastPath (hfast : w.block.fastPath i = true) (h : sweepOne cfg t i w = .ok w') :
    Block.SameOwn i (w.block.setTimer i (Block.clockedTimer cfg w.block t i)) w'.block := by
  obtain ⟨hskip, rfl⟩ | ⟨o, hdue, ho, rfl⟩ := sweepOne_cases h
  · rw [clockedTimer_of_fastPath hfast, hskip, if_neg (by simp)]
    exact sameOwn_setTimer_self i _
  · obtain ⟨hzero, hown⟩ := clockTick_of_fastPath hfast hdue ho
    rw [hzero]
    exact hown

variable {ids : List (Fin 12)}

theorem sameOwn_sweep_of_fastPath (hfast : w.block.fastPath i = true) (hi : i ∉ ids) (h : sweep cfg t ids w = .ok w') :
    Block.SameOwn i w.block w'.block := by
  induction ids generalizing w with
  | nil =>
    obtain rfl := Except.ok.inj h
    exact SameOwn.refl i _
  | cons j ids ih =>
    obtain ⟨hij, hi⟩ := not_or.1 (mt List.mem_cons.2 hi)
    obtain ⟨v, hv, hrest⟩ := sweep_cons_eq_ok.1 h
    have hown := sameOwn_sweepOne_of_fastPath hfast hij hv
    exact SameOwn.trans hown (ih ((fastPath_of_sameOwn hown).trans hfast) hi hrest)

/-- The loop does the clock's part of the timer at the timer's own turn, and nothing else to it. -/
theorem clockedTimer_sweep_of_fastPath (hfast : w.block.fastPath i = true) (hnodup : ids.Nodup) (hi : i ∈ ids)
    (h : sweep cfg t ids w = .ok w') :
    Block.SameOwn i (w.block.setTimer i (Block.clockedTimer cfg w.block t i)) w'.block := by
  induction ids generalizing w with
  | nil => cases hi
  | cons j ids ih =>
    obtain ⟨hj, hnodup⟩ := List.nodup_cons.1 hnodup
    obtain ⟨v, hv, hrest⟩ := sweep_cons_eq_ok.1 h
    rcases eq_or_ne i j with rfl | hij
    · have hown := clockedTimer_sweepOne_of_fastPath hfast hv
      have hfast' : v.block.fastPath i = true :=
        (fastPath_of_sameOwn hown).trans (fastPath_setTimer_clockedTimer.trans hfast)
      exact SameOwn.trans hown (sameOwn_sweep_of_fastPath hfast' hj hrest)
    · have hown := sameOwn_sweepOne_of_fastPath hfast hij hv
      have hrest := ih ((fastPath_of_sameOwn hown).trans hfast) hnodup ((List.mem_cons.1 hi).resolve_left hij) hrest
      rw [clockedTimer_of_sameOwn hown] at hrest
      exact SameOwn.trans (sameOwn_setTimer hown _) hrest

/-- A TICKALL that completes does the clock's part of a timer on the fast path, and nothing else to it. -/
theorem clockedTimer_tickAll_of_fastPath (hfast : b.fastPath i = true) (h : tickAll cfg t b = .ok w) :
    Block.SameOwn i (b.setTimer i (Block.clockedTimer cfg b t i)) w.block := by
  obtain ⟨-, hsweep⟩ := tickAll_eq_ok.1 h
  exact clockedTimer_sweep_of_fastPath (w := ⟨b.setNow t, 0, false⟩) hfast nodup_timerIds (mem_timerIds i) hsweep

end

/-! ## What the clock's part leaves -/

theorem lfsrNibble_clearBin (ctlb : Byte) : (clearBin ctlb).extractLsb' 4 4 = ctlb.extractLsb' 4 4 := by
  decide +revert

theorem fastPath_of_disabled {b : Block} {c : Fin 4} (h : b.disabled c = true) : b.fastPath (channelTimer c) = true :=
  fastPath_iff.2 ⟨c, kind_channelTimer c, h⟩

/-- What rule R177 keeps of a timer record: everything but BIN and `next`. -/
theorem ticked_keeps (T : Timer) (next : TickInf) :
    (T.ticked next).ctlb.extractLsb' 4 4 = T.ctlb.extractLsb' 4 4 ∧ (T.ticked next).count = T.count ∧
      (T.ticked next).done = T.done ∧ (T.ticked next).bout = T.bout :=
  ⟨lfsrNibble_clearBin _, rfl, by simp [Timer.ticked, Timer.done, clearBin], by simp [Timer.ticked, Timer.bout, clearBin]⟩

/-- Settles O42: TICKALL does the clock's part of the timer alone, which is nothing, or the idling of rule R144 under IDLE. -/
theorem fastPathIsSilent : Obligations.FastPathIsSilent := by
  intro s s' t c hdisabled hstep
  obtain ⟨w, hw, rfl⟩ := execTickAll_eq_next.1 hstep
  have hfast := fastPath_of_disabled hdisabled
  obtain ⟨htimer, hsettings, -⟩ := clockedTimer_tickAll_of_fastPath hfast hw
  have hsettings : w.block.settings c = s.block.settings c := hsettings c rfl
  rw [timer_setTimer_self, clockedTimer_of_fastPath hfast] at htimer
  have hkept : (w.block.timer (channelTimer c)).ctlb.extractLsb' 4 4 = (s.block.timer (channelTimer c)).ctlb.extractLsb' 4 4 ∧
      (w.block.timer (channelTimer c)).count = (s.block.timer (channelTimer c)).count ∧
      (w.block.timer (channelTimer c)).done = (s.block.timer (channelTimer c)).done ∧
      (w.block.timer (channelTimer c)).bout = (s.block.timer (channelTimer c)).bout := by
    rw [htimer]
    split
    · exact ticked_keeps _ _
    · exact ⟨rfl, rfl, rfl, rfl⟩
  obtain ⟨hnibble, hcount, hdone, hbout⟩ := hkept
  refine ⟨hsettings, ?_, hcount, hdone, hbout, fun hfrozen => ?_, fun hidle hdue => ?_⟩
  · simp only [Block.lfsr, lfsrOf, hnibble, hsettings]
  · rw [htimer, if_neg (by simp [hfrozen])]
  · rw [htimer, if_pos ⟨hdue, hidle⟩]
    rfl

end Sys2Proof.Proofs
end

section
/-! The queries and RESET (42_orchestrator.md sections 2 and 3, rules R193 to R197). -/

namespace Sys2Proof.Proofs

open Sys2Proof Sys2Proof.Machine

/-- Settles O11: the fields of the reset block. -/
theorem resetRestoresPowerOnValues : Obligations.ResetRestoresPowerOnValues := fun _ =>
  ⟨_, rfl, timer_reset, settings_reset, trigFlag_reset, now_reset, ⟨rfl, rfl⟩, rfl⟩

/-! ## The sticky flags (rules R193, R194) -/

theorem setTrig_onlyTrig (b : Block) (k : Fin 8) (v : Bool) : Block.OnlyTrig k b (b.setTrig k v) :=
  ⟨fun _ => rfl, fun _ => rfl, fun _ hm => trigFlag_setTrig_of_ne _ _ _ _ hm, rfl⟩

/-- A read-and-clear completes with the flag, which is clear after it, so that a second one gives `false`. -/
theorem readAndClear_spec (s : State) (k : Fin 8) :
    ∃ s', s.readAndClear k = .next s' ∧ s'.result = .flag (s.block.trigFlag k) ∧ s'.block.trigFlag k = false ∧
      Block.OnlyTrig k s.block s'.block ∧ s.SameOutside s' ∧
      ∃ s'', s'.readAndClear k = .next s'' ∧ s''.result = .flag false :=
  have hclear := trigFlag_setTrig_self s.block k false
  ⟨_, rfl, rfl, hclear, setTrig_onlyTrig s.block k false, ⟨rfl, rfl⟩, _, rfl, congrArg Result.flag hclear⟩

/-- Settles O43: HSYNC is the read-and-clear of flag 0. -/
theorem hsyncReadsAndClears : Obligations.HsyncReadsAndClears := fun s => readAndClear_spec s 0

/-- Settles O44: VSYNC is the read-and-clear of flag 2. -/
theorem vsyncReadsAndClears : Obligations.VsyncReadsAndClears := fun s => readAndClear_spec s 2

/-! ## The next-trigger tick (rule R195) -/

theorem execTrig_of_le {id : BitVec 4} (h : 12 ≤ id.toNat) (s : State) :
    execTrig id s = .fault (.badTimerId (encodeWord (.trig id))) :=
  dif_neg (Nat.not_lt.2 h)

theorem execTrig_ofNat (i : Fin 12) (s : State) :
    execTrig (BitVec.ofNat 4 i.val) s = .next { s with result := .tick (s.block.timer i).next } := by
  have hid : (BitVec.ofNat 4 i.val).toNat = i.val := by
    rw [BitVec.toNat_ofNat]
    omega
  refine execTrig_eq_next.2 ⟨by omega, ?_⟩
  simp only [hid]

/-- Settles O45: the two branches of TRIG, and the word of a rejected id. -/
theorem trigReturnsTheNextTick : Obligations.TrigReturnsTheNextTick := by
  refine ⟨fun s i => execTrig_ofNat i s, fun s id h => (execTrig_of_le h s).trans ?_⟩
  have hword : encodeWord (.trig id) = 0b010100#6 ++ id := by
    decide +revert
  rw [hword]

/-! ## The sample (rule R196) -/

theorem audioSample_ofNat (b : Block) (c : Fin 4) :
    audioSample b (BitVec.ofNat 6 (8 + c.val)) = sext16 (b.settings c).output := by
  have hn : (BitVec.ofNat 6 (8 + c.val)).toNat = 8 + c.val := by
    rw [BitVec.toNat_ofNat]
    omega
  rw [audioSample, dif_pos (by omega)]
  simp only [hn, Nat.add_sub_cancel_left]

theorem audioSample_of_no_channel {n : BitVec 6} (h : n.toNat < 8 ∨ 11 < n.toNat) (b : Block) : audioSample b n = 0 :=
  dif_neg (by omega)

/-- Settles O46: AUDIOOUT changes nothing, and `audioSample` has a branch for the channels and one for the rest. -/
theorem audioOutReturnsTheSample : Obligations.AudioOutReturnsTheSample := by
  refine ⟨fun s c => (finish_eq_next _ _).2 ?_, fun s n h => (finish_eq_next _ _).2 ?_⟩
  · rw [audioSample_ofNat, sext16]
  · rw [audioSample_of_no_channel h]

end Sys2Proof.Proofs
end

section
/-! TICKALL and the timers that zero events reach (42_orchestrator.md rules R190 and R192): which timers have a zero event, and
what the clock and at most one count-down step make of each timer by itself. -/

namespace Sys2Proof.Proofs

open Sys2Proof Sys2Proof.Machine

/-! ## The chains of links (rules R10, R291) -/

theorem predecessor_eq_some_iff {i k : Fin 12} : predecessor i = some k ↔ link k = some i := by
  revert i k
  decide

/-- A rank that goes up by one along every link, so that no chain of links comes back or is longer than twelve timers. -/
def chainRank (i : Fin 12) : Nat := (i.val + 5) % 12

theorem chainRank_lt (i : Fin 12) : chainRank i < 12 := Nat.mod_lt _ (by decide)

theorem chainRank_of_link {i k : Fin 12} (h : link i = some k) : chainRank k = chainRank i + 1 := by
  revert i k
  decide

/-! ## Which timers have a zero event (rules R145, R150) -/

section
variable {cfg : Config} {b : Block} {t : Tick} {i : Fin 12} {n : Nat}

theorem zeroWithin_succ_iff :
    Block.zeroWithin cfg b t (n + 1) i = true ↔
      (b.timer i).count = 0 ∧ (b.clocked t i = true ∨
        (acceptsPulse cfg i b = true ∧ ∃ k, link k = some i ∧ Block.zeroWithin cfg b t n k = true)) := by
  simp only [← predecessor_eq_some_iff, Block.zeroWithin]
  cases predecessor i <;> simp

theorem pulsed_iff :
    Block.pulsed cfg b t i = true ↔
      acceptsPulse cfg i b = true ∧ ∃ k, link k = some i ∧ Block.zeroIn cfg b t k = true := by
  simp only [← predecessor_eq_some_iff, Block.pulsed]
  cases predecessor i <;> simp

theorem stepped_iff : Block.stepped cfg b t i = true ↔ b.clocked t i = true ∨ Block.pulsed cfg b t i = true :=
  Bool.or_eq_true_iff

/-- Looking further back than the chain before the timer is long changes nothing. -/
theorem zeroWithin_succ_of_chainRank_lt (h : chainRank i < n) :
    Block.zeroWithin cfg b t (n + 1) i = Block.zeroWithin cfg b t n i := by
  induction n generalizing i with
  | zero => omega
  | succ n ih =>
    have hpred : ∀ k, link k = some i ∧ Block.zeroWithin cfg b t (n + 1) k = true ↔
        link k = some i ∧ Block.zeroWithin cfg b t n k = true := by
      intro k
      refine and_congr_right fun hk => ?_
      have := chainRank_of_link hk
      rw [ih (by omega)]
    rw [Bool.eq_iff_iff, zeroWithin_succ_iff, zeroWithin_succ_iff, exists_congr hpred]

/-- A timer has a zero event exactly where it makes a count-down step from the count 0. -/
theorem zeroIn_iff :
    Block.zeroIn cfg b t i = true ↔ (b.timer i).count = 0 ∧ Block.stepped cfg b t i = true := by
  rw [Block.zeroIn, ← zeroWithin_succ_of_chainRank_lt (chainRank_lt i), zeroWithin_succ_iff, stepped_iff, pulsed_iff]
  rfl

theorem zeroIn_of_not_stepped (h : Block.stepped cfg b t i = false) : Block.zeroIn cfg b t i = false :=
  Bool.eq_false_iff.2 fun hz => Bool.eq_false_iff.1 h (zeroIn_iff.1 hz).2

theorem not_pulsed_of_not_linked (h : (b.timer i).linked = false) : Block.pulsed cfg b t i = false := by
  simp [Block.pulsed, acceptsPulse, h]

theorem stepped_of_not_linked (h : (b.timer i).linked = false) : Block.stepped cfg b t i = b.clocked t i := by
  rw [Block.stepped, not_pulsed_of_not_linked h, Bool.or_false]

/-- Under the invariant a due timer counts by the clock, unless the fast path silences it (rule R57). -/
theorem counts_of_due {now : Tick} (h : TimersInv cfg now b) (hdue : b.dueAt t i = true) :
    (b.timer i).linked = false ∧ (b.timer i).cen = true := by
  obtain ⟨hlinked, hcen, -⟩ := h i
  have hnext : (b.timer i).next ≠ never := fun hn => by simp [Block.dueAt, due, hn] at hdue
  exact ⟨Bool.eq_false_iff.2 (mt hlinked hnext), Bool.not_eq_false _ ▸ mt hcen hnext⟩

theorem not_due_of_linked {now : Tick} (h : TimersInv cfg now b) (hlinked : (b.timer i).linked = true) :
    b.dueAt t i = false :=
  Bool.eq_false_iff.2 fun hdue => by simp [(counts_of_due h hdue).1] at hlinked

end

/-! ## Operations that see only what belongs to the timer -/

section
variable {cfg : Config} {a b : Block} {i : Fin 12}

theorem dueAt_of_sameOwn {t : Tick} (h : Block.SameOwn i a b) : b.dueAt t i = a.dueAt t i := by
  obtain ⟨htimer, -, -⟩ := h
  rw [Block.dueAt, htimer, Block.dueAt]

theorem acceptsPulse_of_sameOwn (h : Block.SameOwn i a b) : acceptsPulse cfg i b = acceptsPulse cfg i a := by
  have hfast := fastPath_of_sameOwn h
  obtain ⟨htimer, -, -⟩ := h
  rw [acceptsPulse, hfast, htimer, acceptsPulse]

theorem sameOwn_setTrig (h : Block.SameOwn i a b) (k : Fin 8) (v : Bool) :
    Block.SameOwn i (a.setTrig k v) (b.setTrig k v) := by
  obtain ⟨htimer, hsettings, htrig⟩ := h
  refine ⟨htimer, hsettings, fun m hm => ?_⟩
  rcases eq_or_ne m k with rfl | hmk
  · simp
  · simpa [hmk] using htrig m hm

theorem sameOwn_lfsrStep {c : Fin 4} (h : Block.SameOwn (channelTimer c) a b) :
    Block.SameOwn (channelTimer c) (lfsrStep cfg c a) (lfsrStep cfg c b) := by
  obtain ⟨htimer, hsettings, htrig⟩ := h
  have hc := hsettings c rfl
  refine ⟨?_, fun d hd => ?_, htrig⟩
  · simp only [timer_lfsrStep_self, Block.steppedTimer, Block.nextLfsr, Block.nextBit, Block.taps, Block.lfsr, htimer, hc]
  · obtain rfl := channelTimer_injective hd
    simp only [settings_lfsrStep_self, Block.steppedSettings, Block.nextLfsr, Block.nextBit, Block.taps, Block.lfsr,
      htimer, hc]

theorem sameOwn_countDown (h : Block.SameOwn i a b) :
    Block.SameOwn i (countDown cfg i a).block (countDown cfg i b).block := by
  have htimer : b.timer i = a.timer i := h.1
  by_cases hcount : (a.timer i).count = 0
  · cases hk : kind i with
    | base k =>
      rw [countDown_of_base hcount hk, countDown_of_base (htimer ▸ hcount) hk, htimer]
      exact sameOwn_setTrig (sameOwn_setTimer h _) k true
    | audio c =>
      rw [countDown_of_audio hcount hk, countDown_of_audio (htimer ▸ hcount) hk, htimer]
      obtain rfl := eq_channelTimer_of_kind hk
      exact sameOwn_lfsrStep (sameOwn_setTimer h _)
  · rw [countDown_of_count_ne_zero hcount, countDown_of_count_ne_zero (htimer ▸ hcount), htimer]
    exact sameOwn_setTimer h _

theorem channelTimer_ne_baseOf (c : Fin 4) (k : Fin 8) : channelTimer c ≠ baseOf k := by
  decide +revert

theorem getLsbD_interruptBit (m k : Fin 8) (ie : Bool) :
    (interruptBit m ie).getLsbD k.val = true ↔ baseOf m = baseOf k ∧ ie = true := by
  decide +revert

/-- The timer's interrupt bits after a count-down step: the bit of a base timer, on a zero event under IE (rule R263). -/
theorem bits_countDown (k : Fin 8) :
    (countDown cfg i b).bits.getLsbD k.val = true ↔
      i = baseOf k ∧ (b.timer i).count = 0 ∧ (b.timer i).ie = true := by
  by_cases hcount : (b.timer i).count = 0
  · cases hk : kind i with
    | base m =>
      obtain rfl := eq_baseOf_of_kind hk
      rw [countDown_of_base hcount hk]
      simpa [hcount] using getLsbD_interruptBit m k _
    | audio c =>
      obtain rfl := eq_channelTimer_of_kind hk
      rw [countDown_of_audio hcount hk]
      simp [channelTimer_ne_baseOf c k]
  · rw [countDown_of_count_ne_zero hcount]
    exact iff_of_false (by simp [StepOut.quiet]) fun h => hcount h.2.1

end

/-! ## One timer after TICKALL -/

/-- What belongs to timer `i` after `tick_all(t)`: what the clock leaves (rule R144), after a count-down step where the timer
makes one (rule R150). -/
def afterTick (cfg : Config) (b : Block) (t : Tick) (i : Fin 12) : Block :=
  if Block.stepped cfg b t i then (countDown cfg i (b.setTimer i (Block.clockedTimer cfg b t i))).block
  else b.setTimer i (Block.clockedTimer cfg b t i)

section
variable {cfg : Config} {b : Block} {t : Tick} {i : Fin 12}

theorem afterTick_of_stepped (h : Block.stepped cfg b t i = true) :
    afterTick cfg b t i = (countDown cfg i (b.setTimer i (Block.clockedTimer cfg b t i))).block :=
  if_pos h

theorem afterTick_of_not_stepped (h : Block.stepped cfg b t i = false) :
    afterTick cfg b t i = b.setTimer i (Block.clockedTimer cfg b t i) :=
  if_neg (Bool.eq_false_iff.1 h)

theorem afterTick_stepsAtMostOnce {b' : Block} (h : Block.SameOwn i (afterTick cfg b t i) b') :
    Block.StepsAtMostOnce cfg t i b b' := by
  cases hs : Block.stepped cfg b t i with
  | false => exact .inl (afterTick_of_not_stepped hs ▸ h)
  | true => exact .inr (afterTick_of_stepped hs ▸ h)

/-- Everything the clock alone can do to a record: nothing, or clear BIN and write `next`. -/
theorem clockedTimer_cases (cfg : Config) (b : Block) (t : Tick) (i : Fin 12) :
    Block.clockedTimer cfg b t i = b.timer i ∨ ∃ next, Block.clockedTimer cfg b t i = (b.timer i).ticked next := by
  unfold Block.clockedTimer
  split_ifs
  · exact .inr ⟨_, rfl⟩
  · exact .inr ⟨_, rfl⟩
  · exact .inl rfl

theorem count_clockedTimer : (Block.clockedTimer cfg b t i).count = (b.timer i).count := by
  obtain h | ⟨next, h⟩ := clockedTimer_cases cfg b t i <;> rw [h]
  rfl

theorem clockedTimer_of_not_due (h : b.dueAt t i = false) : Block.clockedTimer cfg b t i = b.timer i := by
  simp [Block.clockedTimer, Block.clocked, Block.idled, h]

theorem backup_clockedTimer : (Block.clockedTimer cfg b t i).backup = (b.timer i).backup := by
  obtain h | ⟨next, h⟩ := clockedTimer_cases cfg b t i <;> rw [h]
  rfl

theorem ctla_clockedTimer : (Block.clockedTimer cfg b t i).ctla = (b.timer i).ctla := by
  obtain h | ⟨next, h⟩ := clockedTimer_cases cfg b t i <;> rw [h]
  rfl

theorem lfsrNibble_clockedTimer : (Block.clockedTimer cfg b t i).ctlb.extractLsb' 4 4 = (b.timer i).ctlb.extractLsb' 4 4 := by
  obtain h | ⟨next, h⟩ := clockedTimer_cases cfg b t i <;> rw [h]
  exact lfsrNibble_clearBin _

theorem lfsrNibble_setDoneBout (ctlb : Byte) : (setDoneBout ctlb).extractLsb' 4 4 = ctlb.extractLsb' 4 4 := by
  decide +revert

/-- The LFSR step depends on the record only through ControlA and the LFSR nibble. -/
theorem nextLfsr_and_settings_setTimer {c : Fin 4} {T : Timer} (hctla : T.ctla = (b.timer (channelTimer c)).ctla)
    (hctlb : T.ctlb.extractLsb' 4 4 = (b.timer (channelTimer c)).ctlb.extractLsb' 4 4) :
    Block.nextLfsr cfg (b.setTimer (channelTimer c) T) c = Block.nextLfsr cfg b c ∧
      Block.steppedSettings cfg (b.setTimer (channelTimer c) T) c = Block.steppedSettings cfg b c := by
  simp [Block.steppedSettings, Block.nextLfsr, Block.nextBit, Block.taps, Block.lfsr, lfsrOf, Timer.fb7, Timer.integ,
    hctla, hctlb]

theorem nextLfsr_and_settings_zeroEvent {c : Fin 4} :
    let b₁ := b.setTimer (channelTimer c) (Block.clockedTimer cfg b t (channelTimer c)).zeroEvent
    Block.nextLfsr cfg b₁ c = Block.nextLfsr cfg b c ∧ Block.steppedSettings cfg b₁ c = Block.steppedSettings cfg b c :=
  nextLfsr_and_settings_setTimer ctla_clockedTimer ((lfsrNibble_setDoneBout _).trans lfsrNibble_clockedTimer)

theorem timerAfter_of_zeroIn (h : Block.zeroIn cfg b t i = true) :
    Block.timerAfter cfg b t i = Block.withNibble cfg b i (Block.clockedTimer cfg b t i).zeroEvent := by
  obtain ⟨hcount, hs⟩ := zeroIn_iff.1 h
  rw [Block.timerAfter, if_pos hs, if_pos hcount]

/-- Everything TICKALL can make of a timer: without a zero event only its record changes; a zero event sets the sticky flag of a
base timer, and steps the LFSR of an audio timer. -/
theorem afterTick_cases (cfg : Config) (b : Block) (t : Tick) (i : Fin 12) :
    (Block.zeroIn cfg b t i = false ∧ afterTick cfg b t i = b.setTimer i (Block.timerAfter cfg b t i)) ∨
    (∃ k, Block.zeroIn cfg b t i = true ∧ i = baseOf k ∧
      afterTick cfg b t i = (b.setTimer i (Block.clockedTimer cfg b t i).zeroEvent).setTrig k true) ∨
    (∃ c, Block.zeroIn cfg b t i = true ∧ i = channelTimer c ∧
      afterTick cfg b t i = lfsrStep cfg c (b.setTimer i (Block.clockedTimer cfg b t i).zeroEvent)) := by
  cases hs : Block.stepped cfg b t i with
  | false =>
    exact .inl ⟨zeroIn_of_not_stepped hs, by simp [afterTick_of_not_stepped hs, Block.timerAfter, hs]⟩
  | true =>
    rw [afterTick_of_stepped hs]
    have hcount : ((b.setTimer i (Block.clockedTimer cfg b t i)).timer i).count = (b.timer i).count := by
      rw [timer_setTimer_self, count_clockedTimer]
    rcases countDown_cases cfg i (b.setTimer i (Block.clockedTimer cfg b t i)) with ⟨h, e⟩ | ⟨k, h, hk, e⟩ | ⟨c, h, hc, e⟩
    all_goals rw [hcount] at h; simp only [e, timer_setTimer_self, setTimer_setTimer]
    · have hz : Block.zeroIn cfg b t i = false := Bool.eq_false_iff.2 fun hz => h (zeroIn_iff.1 hz).1
      exact .inl ⟨hz, by rw [Block.timerAfter, if_pos hs, if_neg h]; rfl⟩
    · exact .inr (.inl ⟨k, zeroIn_iff.2 ⟨h, hs⟩, eq_baseOf_of_kind hk, rfl⟩)
    · exact .inr (.inr ⟨c, zeroIn_iff.2 ⟨h, hs⟩, eq_channelTimer_of_kind hc, rfl⟩)

theorem timer_afterTick (cfg : Config) (b : Block) (t : Tick) (i : Fin 12) :
    (afterTick cfg b t i).timer i = Block.timerAfter cfg b t i := by
  rcases afterTick_cases cfg b t i with ⟨-, e⟩ | ⟨k, hz, rfl, e⟩ | ⟨c, hz, rfl, e⟩ <;> rw [e]
  · exact timer_setTimer_self b i _
  · simp [timerAfter_of_zeroIn hz, Block.withNibble, kind_baseOf]
  · simp [timerAfter_of_zeroIn hz, Block.withNibble, kind_channelTimer, timer_lfsrStep_self, Block.steppedTimer,
      nextLfsr_and_settings_zeroEvent]

theorem count_withNibble (cfg : Config) (b : Block) (i : Fin 12) (T : Timer) :
    (Block.withNibble cfg b i T).count = T.count := by
  unfold Block.withNibble
  cases kind i <;> rfl

/-- Every count that TICKALL can leave: kept, lowered by one, or reloaded (rule R150). -/
theorem count_timerAfter (cfg : Config) (b : Block) (t : Tick) (i : Fin 12) :
    (Block.timerAfter cfg b t i).count = (b.timer i).count ∨
      ((b.timer i).count ≠ 0 ∧ (Block.timerAfter cfg b t i).count = (b.timer i).count - 1) ∨
      ((b.timer i).count = 0 ∧ (b.timer i).reload = true ∧ (Block.timerAfter cfg b t i).count = (b.timer i).backup) := by
  unfold Block.timerAfter
  split_ifs with hs hcount
  · rw [count_withNibble, Timer.zeroEvent, Timer.reload, ctla_clockedTimer, ← Timer.reload]
    cases hreload : (b.timer i).reload with
    | false => exact .inl count_clockedTimer
    | true => exact .inr (.inr ⟨hcount, rfl, backup_clockedTimer⟩)
  · exact .inr (.inl ⟨hcount, congrArg (· - 1) count_clockedTimer⟩)
  · exact .inl count_clockedTimer

theorem settings_afterTick (cfg : Config) (b : Block) (t : Tick) (c : Fin 4) :
    (afterTick cfg b t (channelTimer c)).settings c = Block.settingsAfter cfg b t c := by
  rcases afterTick_cases cfg b t (channelTimer c) with ⟨hz, e⟩ | ⟨k, -, hk, -⟩ | ⟨d, hz, hd, e⟩
  · simp [e, Block.settingsAfter, hz]
  · exact absurd hk (channelTimer_ne_baseOf c k)
  · obtain rfl := channelTimer_injective hd
    simp [e, Block.settingsAfter, hz, settings_lfsrStep_self, nextLfsr_and_settings_zeroEvent]

theorem trigFlag_afterTick (cfg : Config) (b : Block) (t : Tick) (k : Fin 8) :
    (afterTick cfg b t (baseOf k)).trigFlag k = (b.trigFlag k || Block.zeroIn cfg b t (baseOf k)) := by
  rcases afterTick_cases cfg b t (baseOf k) with ⟨hz, e⟩ | ⟨m, hz, hm, e⟩ | ⟨c, -, hc, -⟩
  · simp [e, hz]
  · obtain rfl : k = m := Fin.castLE_injective _ hm
    simp [e, hz]
  · exact absurd hc.symm (channelTimer_ne_baseOf c k)

/-- TICKALL never makes a timer due that was not: without the clock, `next` is kept or becomes NEVER. -/
theorem dueAt_afterTick (h : b.dueAt t i = false) : (afterTick cfg b t i).dueAt t i = false := by
  have hnext : ((afterTick cfg b t i).timer i).next = (b.timer i).next ∨ ((afterTick cfg b t i).timer i).next = never := by
    rw [afterTick, clockedTimer_of_not_due h]
    split
    · simpa using next_countDown_self cfg i (b.setTimer i (b.timer i))
    · simp
  obtain hnext | hnext := hnext
  · rwa [Block.dueAt, hnext]
  · simp [Block.dueAt, hnext, due]

theorem linked_afterTick : ((afterTick cfg b t i).timer i).linked = (b.timer i).linked := by
  have hclock : (Block.clockedTimer cfg b t i).linked = (b.timer i).linked := by
    rw [Timer.linked, ctla_clockedTimer, Timer.linked]
  rw [afterTick]
  split
  · rw [linked_countDown, timer_setTimer_self, hclock]
  · rw [timer_setTimer_self, hclock]

/-- A timer that is not due and makes no step is left alone. -/
theorem sameOwn_afterTick_of_inert (hdue : b.dueAt t i = false) (hs : Block.stepped cfg b t i = false) :
    Block.SameOwn i (afterTick cfg b t i) b := by
  rw [afterTick_of_not_stepped hs, clockedTimer_of_not_due hdue]
  exact sameOwn_setTimer_self i b

end

end Sys2Proof.Proofs
end

section
/-! The sweep of TICKALL against the description of each timer by itself (42_orchestrator.md rules R190 to R192): at every point
of the sweep some timers have had their whole effect and the others are untouched, and no timer is reached a second time. -/

namespace Sys2Proof.Proofs

open Sys2Proof Sys2Proof.Machine

/-! ## One timer's turn -/

/-- The report `o` of a clock tick or a pulse of timer `i`, made on the block `a`, is the timer's whole effect in `tick_all(t)`
from `b`. -/
structure Finishes (cfg : Config) (b : Block) (t : Tick) (i : Fin 12) (a : Block) (o : StepOut) : Prop where
  only : Block.OnlyOwn i a o.block
  own : Block.SameOwn i (afterTick cfg b t i) o.block
  zero : o.zero = Block.zeroIn cfg b t i
  bits : ∀ k : Fin 8, o.bits.getLsbD k.val = true ↔
    i = baseOf k ∧ Block.zeroIn cfg b t i = true ∧ (b.timer i).ie = true

section
variable {cfg : Config} {a a₁ b : Block} {t : Tick} {i : Fin 12}

theorem finishes_countDown (hs : Block.stepped cfg b t i = true)
    (hclock : Block.SameOwn i (b.setTimer i (Block.clockedTimer cfg b t i)) a₁) (honly : Block.OnlyOwn i a a₁) :
    Finishes cfg b t i a (countDown cfg i a₁) := by
  have htimer : a₁.timer i = Block.clockedTimer cfg b t i := hclock.1.trans (timer_setTimer_self _ _ _)
  have hz : (a₁.timer i).count = 0 ↔ Block.zeroIn cfg b t i = true := by
    rw [htimer, count_clockedTimer, zeroIn_iff, and_iff_left hs]
  refine ⟨OnlyOwn.trans honly (countDown_onlyOwn cfg i a₁), ?_, ?_, fun k => ?_⟩
  · rw [afterTick_of_stepped hs]
    exact sameOwn_countDown hclock
  · rw [Bool.eq_iff_iff, countDown_zero, hz]
  · rw [bits_countDown, hz, htimer, Timer.ie, ctla_clockedTimer, Timer.ie]

theorem finishes_quiet (hs : Block.stepped cfg b t i = false)
    (hclock : Block.SameOwn i (b.setTimer i (Block.clockedTimer cfg b t i)) a₁) (honly : Block.OnlyOwn i a a₁) :
    Finishes cfg b t i a (StepOut.quiet a₁) := by
  have hz := zeroIn_of_not_stepped hs
  refine ⟨honly, ?_, hz.symm, fun k => ?_⟩
  · rw [afterTick_of_not_stepped hs]
    exact hclock
  · simp [StepOut.quiet, hz]

theorem quiet_clockTick_of_fastPath {o : StepOut} (hfast : a.fastPath i = true) (ho : clockTick cfg i t a = .ok o) :
    o = StepOut.quiet o.block := by
  obtain ⟨-, -, rfl⟩ | ⟨-, rfl⟩ | ⟨-, -, hslow, -⟩ := clockTick_eq_ok ho
  · rfl
  · rfl
  · simp [hfast] at hslow

/-- The clock tick of a due timer, met as TICKALL found it: the invariant says that it counts, unless it is silenced. -/
theorem finishes_clockTick {now : Tick} {o : StepOut} (hinv : TimersInv cfg now b) (hdue : b.dueAt t i = true)
    (hown : Block.SameOwn i b a) (ho : clockTick cfg i t a = .ok o) : Finishes cfg b t i a o := by
  obtain ⟨hlinked, hcen⟩ := counts_of_due hinv hdue
  have hstepped := stepped_of_not_linked (cfg := cfg) (t := t) hlinked
  have hclock : Block.SameOwn i (b.setTimer i (Block.clockedTimer cfg b t i)) (a.setTimer i (Block.clockedTimer cfg a t i)) := by
    rw [clockedTimer_of_sameOwn hown]
    exact sameOwn_setTimer hown _
  cases hc : b.clocked t i with
  | true =>
    obtain rfl := clockTick_of_clocked ((clocked_of_sameOwn hown).trans hc) ho
    exact finishes_countDown (hstepped.trans hc) hclock (setTimer_onlyOwn i a _)
  | false =>
    have hfast : a.fastPath i = true := by
      rw [fastPath_of_sameOwn hown]
      simpa [Block.clocked, hdue, hlinked, hcen] using hc
    obtain ⟨-, hrest⟩ := clockTick_of_fastPath hfast ((dueAt_of_sameOwn hown).trans hdue) ho
    rw [quiet_clockTick_of_fastPath hfast ho]
    exact finishes_quiet (hstepped.trans hc) (SameOwn.trans hclock hrest) (clockTick_onlyOwn ho)

/-- An accepted pulse from a timer that has a zero event, met as TICKALL found it. -/
theorem finishes_tickLinked {now : Tick} {j : Fin 12} (hinv : TimersInv cfg now b) (hlink : link j = some i)
    (hz : Block.zeroIn cfg b t j = true) (haccepts : acceptsPulse cfg i b = true) (hown : Block.SameOwn i b a) :
    Finishes cfg b t i a (tickLinked cfg i a) := by
  have hs : Block.stepped cfg b t i = true := stepped_iff.2 (.inr (pulsed_iff.2 ⟨haccepts, j, hlink, hz⟩))
  have hdue : b.dueAt t i = false := not_due_of_linked hinv (linked_of_acceptsPulse haccepts)
  have hclock : Block.SameOwn i (b.setTimer i (Block.clockedTimer cfg b t i)) a := by
    rw [clockedTimer_of_not_due hdue]
    exact SameOwn.trans (sameOwn_setTimer_self i b) hown
  rw [tickLinked, if_pos ((acceptsPulse_of_sameOwn hown).trans haccepts)]
  exact finishes_countDown hs hclock (OnlyOwn.refl i a)

end

/-! ## Which timers have been reached -/

/-- Between two turns or two pulses of the sweep, with the timers of `ids` still to have their turns: `D` holds the timers that
have been clocked or pulsed so far, and `pending` is the one of them whose zero event is still to be passed on. A due timer that
has had its turn is in `D`; what is in `D` got there by its own turn or, where it is linked, through its predecessor; and every
zero event in `D` but the pending one has been passed on. -/
structure Reached (cfg : Config) (b : Block) (t : Tick) (ids : List (Fin 12)) (D : Finset (Fin 12))
    (pending : Option (Fin 12)) : Prop where
  turned : ∀ i ∉ ids, b.dueAt t i = true → i ∈ D
  source : ∀ i ∈ D, ((b.timer i).linked = false ∧ i ∉ ids) ∨ ((b.timer i).linked = true ∧ ∃ k ∈ D, link k = some i)
  followed : ∀ k ∈ D, pending ≠ some k → Block.zeroIn cfg b t k = true →
    ∀ i, link k = some i → acceptsPulse cfg i b = true → i ∈ D

section
variable {cfg : Config} {b : Block} {t : Tick} {ids : List (Fin 12)} {D : Finset (Fin 12)} {pending : Option (Fin 12)}
  {j k : Fin 12}

theorem reached_start (cfg : Config) (b : Block) (t : Tick) : Reached cfg b t timerIds ∅ none :=
  ⟨fun i hi => absurd (mem_timerIds i) hi, by simp, by simp⟩

/-- The turn of a timer that is not due reaches no timer. -/
theorem Reached.skip (h : Reached cfg b t (j :: ids) D none) (hdue : b.dueAt t j = false) : Reached cfg b t ids D none := by
  refine ⟨fun i hi hdi => ?_, fun i hi => ?_, h.followed⟩
  · have hij : i ≠ j := fun e => by simp [← e, hdi] at hdue
    exact h.turned i (List.not_mem_cons_of_ne_of_not_mem hij hi) hdi
  · exact (h.source i hi).imp_left fun ⟨hl, hn⟩ => ⟨hl, List.not_mem_of_not_mem_cons hn⟩

/-- The turn of a due timer, which is not linked, reaches that timer. -/
theorem Reached.turn (h : Reached cfg b t (j :: ids) D none) (hj : j ∉ ids) (hlinked : (b.timer j).linked = false) :
    Reached cfg b t ids (insert j D) (some j) := by
  refine ⟨fun i hi hdi => ?_, fun i hi => ?_, fun k hk hne hz i hl ha => ?_⟩
  · rcases eq_or_ne i j with rfl | hij
    · exact Finset.mem_insert_self i D
    · exact Finset.mem_insert_of_mem (h.turned i (List.not_mem_cons_of_ne_of_not_mem hij hi) hdi)
  · obtain rfl | hi := Finset.mem_insert.1 hi
    · exact .inl ⟨hlinked, hj⟩
    · exact (h.source i hi).imp (fun ⟨hl, hn⟩ => ⟨hl, List.not_mem_of_not_mem_cons hn⟩)
        fun ⟨hl, k, hk, hki⟩ => ⟨hl, k, Finset.mem_insert_of_mem hk, hki⟩
  · have hkD := (Finset.mem_insert.1 hk).resolve_left fun e => hne (e ▸ rfl)
    exact Finset.mem_insert_of_mem (h.followed k hkD (Option.some_ne_none k).symm hz i hl ha)

/-- An accepted pulse reaches the successor, whose own zero event is then to be passed on. -/
theorem Reached.pulse (h : Reached cfg b t ids D (some j)) (hj : j ∈ D) (hlink : link j = some k)
    (hlinked : (b.timer k).linked = true) : Reached cfg b t ids (insert k D) (some k) := by
  refine ⟨fun i hi hdi => Finset.mem_insert_of_mem (h.turned i hi hdi), fun i hi => ?_, fun m hm hne hz i hl ha => ?_⟩
  · obtain rfl | hi := Finset.mem_insert.1 hi
    · exact .inr ⟨hlinked, j, Finset.mem_insert_of_mem hj, hlink⟩
    · exact (h.source i hi).imp_right fun ⟨hl, m, hm, hmi⟩ => ⟨hl, m, Finset.mem_insert_of_mem hm, hmi⟩
  · have hmD := (Finset.mem_insert.1 hm).resolve_left fun e => hne (e ▸ rfl)
    rcases eq_or_ne m j with rfl | hmj
    · obtain rfl := Option.some.inj (hlink.symm.trans hl)
      exact Finset.mem_insert_self k D
    · exact Finset.mem_insert_of_mem (h.followed m hmD (fun e => hmj (Option.some.inj e).symm) hz i hl ha)

/-- A zero event that pulses no timer, or none that accepts the pulse, has been passed on. -/
theorem Reached.close (h : Reached cfg b t ids D (some j))
    (hend : Block.zeroIn cfg b t j = true → ∀ i, link j = some i → acceptsPulse cfg i b = true → i ∈ D) :
    Reached cfg b t ids D none := by
  refine ⟨h.turned, h.source, fun k hk _ hz => ?_⟩
  rcases eq_or_ne k j with rfl | hkj
  · exact hend hz
  · exact h.followed k hk (fun e => hkj (Option.some.inj e).symm) hz

/-- A timer that is due in its turn has not been reached before: only its own turn reaches a timer that is not linked. -/
theorem Reached.notMem_of_turn (h : Reached cfg b t ids D pending) (hj : j ∈ ids) (hlinked : (b.timer j).linked = false) :
    j ∉ D := fun hD => by
  obtain ⟨-, hnot⟩ | ⟨hl, -⟩ := h.source j hD
  · exact hnot hj
  · simp [hlinked] at hl

/-- The linked successor of a timer that is reached only now has not been reached before: a timer has one predecessor. -/
theorem Reached.notMem_of_link (h : Reached cfg b t ids D pending) (hj : j ∉ D) (hlink : link j = some k)
    (hlinked : (b.timer k).linked = true) : k ∉ insert j D := by
  refine Finset.mem_insert.not.2 (not_or.2 ⟨fun e => ?_, fun hD => ?_⟩)
  · have := chainRank_of_link hlink
    rw [e] at this
    omega
  · obtain ⟨hl, -⟩ | ⟨-, m, hm, hmk⟩ := h.source k hD
    · simp [hlinked] at hl
    · have hmj : some m = some j := (predecessor_of_link hmk).symm.trans (predecessor_of_link hlink)
      exact hj (Option.some.inj hmj ▸ hm)

/-- Once every timer has had its turn, every timer that makes a count-down step has been reached, by induction along its
chain. -/
theorem Reached.mem_of_stepped (h : Reached cfg b t [] D none) (i : Fin 12) (hs : Block.stepped cfg b t i = true) : i ∈ D := by
  obtain hc | hp := stepped_iff.1 hs
  · obtain ⟨hdue, -⟩ := clocked_iff.1 hc
    exact h.turned i List.not_mem_nil hdue
  · obtain ⟨ha, k, hl, hz⟩ := pulsed_iff.1 hp
    have hk := h.mem_of_stepped k (zeroIn_iff.1 hz).2
    exact h.followed k hk (Option.some_ne_none k).symm hz i hl ha
termination_by chainRank i
decreasing_by
  have := chainRank_of_link hl
  omega

end

/-! ## The sweep in progress -/

/-- The sweep in progress, once it has reached exactly the timers of `D`: these have had their whole effect, in the block and in
the two outputs, and what belongs to any other timer is as it was. -/
structure Swept (cfg : Config) (b : Block) (t : Tick) (D : Finset (Fin 12)) (w : Sweep) : Prop where
  reached : ∀ i ∈ D, Block.SameOwn i (afterTick cfg b t i) w.block
  untouched : ∀ i ∉ D, Block.SameOwn i b w.block
  mask : ∀ k : Fin 8, w.mask.getLsbD k.val = true ↔
    baseOf k ∈ D ∧ Block.zeroIn cfg b t (baseOf k) = true ∧ (b.timer (baseOf k)).ie = true
  timer4 : w.timer4 = true ↔ 4 ∈ D ∧ Block.zeroIn cfg b t 4 = true

theorem absorb_quiet (w : Sweep) (i : Fin 12) : w.absorb i (StepOut.quiet w.block) = w := by
  simp [Sweep.absorb, StepOut.quiet]

section
variable {cfg : Config} {b : Block} {t now : Tick} {ids : List (Fin 12)} {D : Finset (Fin 12)} {i j k : Fin 12} {w w' : Sweep}

theorem swept_start (cfg : Config) (b : Block) (t : Tick) : Swept cfg b t ∅ ⟨b.setNow t, 0, false⟩ :=
  ⟨by simp, fun i _ => sameOwn_setNow i b t, by simp, by simp⟩

theorem Swept.absorb {o : StepOut} (h : Swept cfg b t D w) (hi : i ∉ D) (ho : Finishes cfg b t i w.block o) :
    Swept cfg b t (insert i D) (w.absorb i o) := by
  refine ⟨fun m hm => ?_, fun m hm => ?_, fun k => ?_, ?_⟩
  · obtain rfl | hm := Finset.mem_insert.1 hm
    · exact ho.own
    · exact SameOwn.trans (h.reached m hm) (sameOwn_of_onlyOwn ho.only (ne_of_mem_of_not_mem hm hi))
  · obtain ⟨hmi, hm⟩ := not_or.1 (mt Finset.mem_insert.2 hm)
    exact SameOwn.trans (h.untouched m hm) (sameOwn_of_onlyOwn ho.only hmi)
  · rw [Sweep.absorb, BitVec.getLsbD_or, Bool.or_eq_true, h.mask, ho.bits, Finset.mem_insert]
    rcases eq_or_ne i (baseOf k) with rfl | hne
    · simp [hi]
    · simp [hne, hne.symm]
  · rw [Sweep.absorb, Bool.or_eq_true, h.timer4, Bool.and_eq_true, ho.zero, Finset.mem_insert]
    rcases eq_or_ne i 4 with rfl | hne
    · simp [hi]
    · simp [hne, hne.symm]

theorem Swept.linked (h : Swept cfg b t D w) (i : Fin 12) : (w.block.timer i).linked = (b.timer i).linked := by
  by_cases hi : i ∈ D
  · rw [(h.reached i hi).1, linked_afterTick]
  · rw [(h.untouched i hi).1]

theorem Swept.dueAt (h : Swept cfg b t D w) (hdue : b.dueAt t i = false) : w.block.dueAt t i = false := by
  by_cases hi : i ∈ D
  · rw [dueAt_of_sameOwn (h.reached i hi), dueAt_afterTick hdue]
  · rw [dueAt_of_sameOwn (h.untouched i hi), hdue]

/-- A pulse is refused in the sweep where it is refused in the block before it. -/
theorem Swept.acceptsPulse_eq_false (h : Swept cfg b t D w) (hk : (b.timer k).linked = true → k ∉ D)
    (hrefused : acceptsPulse cfg k b = false) : acceptsPulse cfg k w.block = false := by
  cases hl : (b.timer k).linked with
  | false => simp [acceptsPulse, h.linked k, hl]
  | true => rw [acceptsPulse_of_sameOwn (h.untouched k (hk hl)), hrefused]

/-- The cascade from timer `j`, by induction along its chain: it reaches every timer that accepts a pulse of a timer that has a
zero event, and each for the first time. -/
theorem swept_cascade (hinv : TimersInv cfg now b) {fuel : Nat} (hfuel : 12 ≤ chainRank j + fuel) (hj : j ∈ D)
    (hz : Block.zeroIn cfg b t j = true) (hfresh : ∀ k, link j = some k → (b.timer k).linked = true → k ∉ D)
    (hr : Reached cfg b t ids D (some j)) (hw : Swept cfg b t D w) :
    ∃ D', Reached cfg b t ids D' none ∧ Swept cfg b t D' (cascade cfg fuel j w) := by
  induction fuel generalizing j D w with
  | zero =>
    have := chainRank_lt j
    omega
  | succ fuel ih =>
    unfold cascade
    split
    case h_1 hl => exact ⟨D, hr.close fun _ i hi => by simp [hl] at hi, hw⟩
    case h_2 k hl =>
      cases ha : acceptsPulse cfg k b with
      | false =>
        rw [tickLinked, if_neg (Bool.eq_false_iff.1 (hw.acceptsPulse_eq_false (hfresh k hl) ha)), absorb_quiet]
        refine ⟨D, hr.close fun _ i hi hai => ?_, hw⟩
        obtain rfl := Option.some.inj (hl.symm.trans hi)
        simp [ha] at hai
      | true =>
        have hlinked := linked_of_acceptsPulse ha
        have hk := hfresh k hl hlinked
        have ho := finishes_tickLinked hinv hl hz ha (hw.untouched k hk)
        have hw' := hw.absorb hk ho
        have hr' := hr.pulse hj hl hlinked
        rw [ho.zero]
        split
        case isTrue hzk =>
          have := chainRank_of_link hl
          exact ih (by omega) (Finset.mem_insert_self k D) hzk (fun m hm hml => hr.notMem_of_link hk hm hml) hr' hw'
        case isFalse hzk => exact ⟨_, hr'.close fun h => absurd h hzk, hw'⟩

theorem swept_sweepOne (hinv : TimersInv cfg now b) (hj : j ∉ ids) (hr : Reached cfg b t (j :: ids) D none)
    (hw : Swept cfg b t D w) (h : sweepOne cfg t j w = .ok w') :
    ∃ D', Reached cfg b t ids D' none ∧ Swept cfg b t D' w' := by
  cases hdue : b.dueAt t j with
  | false =>
    obtain ⟨-, rfl⟩ | ⟨o, hdue', -, -⟩ := sweepOne_cases h
    · exact ⟨D, hr.skip hdue, hw⟩
    · simp [hw.dueAt hdue] at hdue'
  | true =>
    obtain ⟨hlinked, -⟩ := counts_of_due hinv hdue
    have hD := hr.notMem_of_turn List.mem_cons_self hlinked
    have hown := hw.untouched j hD
    obtain ⟨hskip, -⟩ | ⟨o, -, ho, rfl⟩ := sweepOne_cases h
    · simp [dueAt_of_sameOwn hown, hdue] at hskip
    · have hfinish := finishes_clockTick hinv hdue hown ho
      have hw' := hw.absorb hD hfinish
      have hr' := hr.turn hj hlinked
      rw [hfinish.zero]
      split
      case isTrue hz =>
        exact swept_cascade hinv (Nat.le_add_left 12 _) (Finset.mem_insert_self j D) hz
          (fun k hk hl => hr.notMem_of_link hD hk hl) hr' hw'
      case isFalse hz => exact ⟨_, hr'.close fun h => absurd h hz, hw'⟩

theorem swept_sweep (hinv : TimersInv cfg now b) (hnodup : ids.Nodup) (hr : Reached cfg b t ids D none)
    (hw : Swept cfg b t D w) (h : sweep cfg t ids w = .ok w') :
    ∃ D', Reached cfg b t [] D' none ∧ Swept cfg b t D' w' := by
  induction ids generalizing D w with
  | nil =>
    obtain rfl := Except.ok.inj h
    exact ⟨D, hr, hw⟩
  | cons j ids ih =>
    obtain ⟨hj, hnodup⟩ := List.nodup_cons.1 hnodup
    obtain ⟨v, hv, hrest⟩ := sweep_cons_eq_ok.1 h
    obtain ⟨D', hr', hw'⟩ := swept_sweepOne hinv hj hr hw hv
    exact ih hnodup hr' hw' hrest

/-- A TICKALL that completes has had its whole effect on every timer: one that the sweep never reached has none to have. -/
theorem swept_tickAll (hinv : TimersInv cfg now b) (h : tickAll cfg t b = .ok w) : Swept cfg b t Finset.univ w := by
  obtain ⟨-, hsweep⟩ := tickAll_eq_ok.1 h
  obtain ⟨D, hr, hw⟩ := swept_sweep hinv nodup_timerIds (reached_start cfg b t) (swept_start cfg b t) hsweep
  have hmem {i} (hz : Block.zeroIn cfg b t i = true) : i ∈ D := hr.mem_of_stepped i (zeroIn_iff.1 hz).2
  refine ⟨fun i _ => ?_, fun i hi => absurd (Finset.mem_univ i) hi, fun k => ?_, ?_⟩
  · by_cases hi : i ∈ D
    · exact hw.reached i hi
    · have hdue := Bool.eq_false_iff.2 (mt (hr.turned i List.not_mem_nil) hi)
      have hs := Bool.eq_false_iff.2 (mt (hr.mem_of_stepped i) hi)
      exact SameOwn.trans (sameOwn_afterTick_of_inert hdue hs) (hw.untouched i hi)
  · rw [hw.mask, and_iff_right (Finset.mem_univ _), and_iff_right_of_imp fun ⟨hz, _⟩ => hmem hz]
  · rw [hw.timer4, and_iff_right (Finset.mem_univ _), and_iff_right_of_imp hmem]

end

/-! ## The statements -/

/-- Settles O34: the host's contract lets the sweep complete, and the whole effect on each timer is the one described. -/
theorem tickAllIsSimultaneous : Obligations.TickAllIsSimultaneous := by
  intro s t hinv hsafe
  obtain ⟨w, hw⟩ := tickAll_completes hsafe
  obtain ⟨hreached, -, hmask, htimer4⟩ := swept_tickAll hinv hw
  have hown i := hreached i (Finset.mem_univ i)
  refine ⟨_, w.mask, w.timer4, execTickAll_eq_next.2 ⟨w, hw, rfl⟩, rfl, ⟨rfl, rfl⟩, now_tickAll hw,
    fun i => ?_, fun c => ?_, fun k => ?_, fun k => ?_, ?_⟩
  · obtain ⟨htimer, -, -⟩ := hown i
    exact htimer.trans (timer_afterTick s.cfg s.block t i)
  · obtain ⟨-, hsettings, -⟩ := hown (channelTimer c)
    exact (hsettings c rfl).trans (settings_afterTick s.cfg s.block t c)
  · obtain ⟨-, -, htrig⟩ := hown (baseOf k)
    exact (htrig k rfl).trans (trigFlag_afterTick s.cfg s.block t k)
  · rw [Bool.eq_iff_iff, hmask, Bool.and_eq_true, and_iff_right (Finset.mem_univ _)]
  · rw [Bool.eq_iff_iff, htimer4, and_iff_right (Finset.mem_univ _)]

/-- Settles O40: the whole effect of TICKALL on a timer is made of the clock's part and at most one step. -/
theorem eachTimerCountsAtMostOnce : Obligations.EachTimerCountsAtMostOnce := by
  intro s s' t hinv h i
  obtain ⟨w, hw, rfl⟩ := execTickAll_eq_next.1 h
  have hown := (swept_tickAll hinv hw).reached i (Finset.mem_univ i)
  have htimer : w.block.timer i = Block.timerAfter s.cfg s.block t i := hown.1.trans (timer_afterTick s.cfg s.block t i)
  refine ⟨afterTick_stepsAtMostOnce hown, ?_⟩
  rw [htimer]
  exact count_timerAfter s.cfg s.block t i

/-! ## No timer due -/

theorem sweepOne_of_not_due {cfg : Config} {t : Tick} {i : Fin 12} {w : Sweep} (h : w.block.dueAt t i = false) :
    sweepOne cfg t i w = .ok w :=
  if_neg (Bool.eq_false_iff.1 h)

theorem sweep_of_none_due {cfg : Config} {t : Tick} {w : Sweep} (h : ∀ i, w.block.dueAt t i = false) :
    ∀ ids, sweep cfg t ids w = .ok w
  | [] => rfl
  | i :: ids => sweep_cons_eq_ok.2 ⟨w, sweepOne_of_not_due (h i), sweep_of_none_due h ids⟩

/-- Settles O37: every turn of the sweep is skipped. -/
theorem tickAllWithNoTimerDue : Obligations.TickAllWithNoTimerDue := by
  intro s t ht hlater
  have hdue (i : Fin 12) : s.block.dueAt t i = false := by
    cases hn : (s.block.timer i).next with
    | none => simp [Block.dueAt, due, hn]
    | some n => simpa [Block.dueAt, due, hn] using hlater i n hn
  have hsweep : sweep s.cfg t timerIds ⟨s.block.setNow t, 0, false⟩ = .ok ⟨s.block.setNow t, 0, false⟩ :=
    sweep_of_none_due hdue timerIds
  exact execTickAll_eq_next.2 ⟨_, tickAll_eq_ok.2 ⟨ht, hsweep⟩, rfl⟩

end Sys2Proof.Proofs
end

section
/-! The register accesses with no effect but their own (43_register_access.md, rules R220 to R232, R235 to R240 and R243): the
peeks, and the pokes that only store their byte; and what a store makes of the values derived from several registers, the LFSR
(10_state.md rule R50) and the fast-path flag (41_audio.md rule R171). -/

namespace Sys2Proof.Proofs

open Sys2Proof Sys2Proof.Machine

/-! ## The LFSR and the two registers that hold it (rule R50) -/

theorem lfsr_high (b : Block) (c : Fin 4) :
    (b.lfsr c).extractLsb' 8 4 = (b.timer (channelTimer c)).ctlb.extractLsb' 4 4 :=
  BitVec.extractLsb'_append_eq_left

theorem lfsr_low (b : Block) (c : Fin 4) : (b.lfsr c).extractLsb' 0 8 = (b.settings c).shiftLo :=
  BitVec.extractLsb'_append_eq_right

/-- ControlB is the LFSR's top nibble above the status bits. -/
theorem ctlb_eq_lfsrNibble_append_status (b : Block) (c : Fin 4) :
    (b.timer (channelTimer c)).ctlb =
      (b.lfsr c).extractLsb' 8 4 ++ (b.timer (channelTimer c)).ctlb.extractLsb' 0 4 := by
  rw [lfsr_high, BitVec.extractLsb'_append_extractLsb'_eq_extractLsb' (Nat.zero_add 4).symm]
  exact BitVec.extractLsb'_eq_self.symm

/-! ## Peeks -/

theorem peeked_eq_next (s : State) (v : Byte) : s.peeked v = .next { s with result := .byte v } := rfl

theorem peeked_controlA_of_asWritten {s : State} (h : s.cfg.ctlaBit6Read = .asWritten) (a : Byte) :
    s.peeked (readControlA s.cfg a) = .next { s with result := .byte a } := by
  rw [peeked_eq_next, readControlA, h]

theorem peeked_controlA_of_zero {s : State} (h : s.cfg.ctlaBit6Read = .zero) (a : Byte) :
    s.peeked (readControlA s.cfg a) = .next { s with result := .byte (a &&& 0xBF) } := by
  rw [peeked_eq_next, readControlA, h]

/-- Settles O16: each of the four is a `peeked`, ControlA's in the two cases of CTLA_BIT6_READ. -/
theorem basePeeksReturnRegisters : Obligations.BasePeeksReturnRegisters := fun s _ =>
  ⟨peeked_eq_next s _, (peeked_controlA_of_asWritten · _), (peeked_controlA_of_zero · _), peeked_eq_next s _,
    peeked_eq_next s _⟩

/-- An audio operand `cc` below the bits `0010` is the number of its timer (rules R104, R116). -/
theorem append_eq_ofNat_channel (c : BitVec 2) : 2#4 ++ c = BitVec.ofNat 6 (8 + (channel c).val) := by
  decide +revert

theorem exec_audioOut_channel (s : State) (c : BitVec 2) :
    exec (.audioOut (2#4 ++ c)) s = .next { s with result := .sample ((s.block.settings (channel c)).output.signExtend 16) } := by
  obtain ⟨hchannel, -⟩ := audioOutReturnsTheSample
  rw [append_eq_ofNat_channel]
  exact hchannel s (channel c)

theorem exec_peekAshift (s : State) (c : BitVec 2) :
    exec (.peekAshift c) s = .next { s with result := .byte ((s.block.lfsr (channel c)).extractLsb' 0 8) } := by
  rw [lfsr_low]
  exact peeked_eq_next s _

/-- Settles O17: each of the eight is a `peeked`, and the two halves of the LFSR stand in the registers they are read from. -/
theorem audioPeeksReturnRegisters : Obligations.AudioPeeksReturnRegisters := fun s c =>
  ⟨peeked_eq_next s _, peeked_eq_next s _, peeked_eq_next s _, exec_audioOut_channel s c, exec_peekAshift s c,
    peeked_eq_next s _, (peeked_controlA_of_asWritten · _), (peeked_controlA_of_zero · _), peeked_eq_next s _,
    peeked_eq_next s _, ctlb_eq_lfsrNibble_append_status s.block (channel c)⟩

/-! ## Pokes of a timer record -/

section
variable {s s' : State} {c : Fin 4} {T : Timer}

theorem disabled_of_pokedTimer (h : s.PokedTimer (channelTimer c) T s') :
    s'.block.disabled c = (T.backup == 0x00 && (s.block.settings c).feedback == 0x01) := by
  obtain ⟨htimer, ⟨-, hsettings, -, -⟩, -, -⟩ := h
  rw [Block.disabled, htimer, hsettings]

theorem lfsr_high_of_pokedTimer (h : s.PokedTimer (channelTimer c) T s') :
    (s'.block.lfsr c).extractLsb' 8 4 = T.ctlb.extractLsb' 4 4 := by
  obtain ⟨htimer, -, -, -⟩ := h
  rw [lfsr_high, htimer]

theorem lfsr_low_of_pokedTimer (h : s.PokedTimer (channelTimer c) T s') :
    (s'.block.lfsr c).extractLsb' 0 8 = (s.block.lfsr c).extractLsb' 0 8 := by
  obtain ⟨-, ⟨-, hsettings, -, -⟩, -, -⟩ := h
  rw [lfsr_low, lfsr_low, hsettings]

end

/-- Settles O18: both pokes store into one timer record, and the fast-path flag reads Backup and Feedback alone. -/
theorem backupPokesStore : Obligations.BackupPokesStore := by
  refine ⟨fun s i v => finish_setTimer_pokes s (baseTimer i) _, fun s c v => ?_⟩
  obtain ⟨s', hexec, hpoked⟩ := finish_setTimer_pokes s (audioTimer c) { s.block.timer (audioTimer c) with backup := v }
  exact ⟨s', hexec, hpoked, disabled_of_pokedTimer hpoked⟩

/-- Settles O19: both pokes store into one timer record, whose ControlB holds the LFSR's top nibble; of all that can happen to
a record, only a ControlB poke of its timer and RESET clear BOUT. -/
theorem controlBPokesStoreAllBits : Obligations.ControlBPokesStoreAllBits := by
  refine ⟨fun s i v => finish_setTimer_pokes s (baseTimer i) _, fun s c v => ?_, fun ins s s' i h hset hclear => ?_⟩
  · obtain ⟨s', hexec, hpoked⟩ := finish_setTimer_pokes s (audioTimer c) { s.block.timer (audioTimer c) with ctlb := v }
    exact ⟨s', hexec, hpoked, lfsr_high_of_pokedTimer hpoked, lfsr_low_of_pokedTimer hpoked⟩
  · obtain ⟨-, hbout, -⟩ := statusBitsChangeOnlyAsStated ins s s' i h
    exact or_assoc.1 (hbout hset hclear)

/-! ## Pokes of a channel's settings -/

theorem setSettings_onlySettings (c : Fin 4) (b : Block) (A : AudioSettings) : Block.OnlySettings c b (b.setSettings c A) :=
  ⟨fun _ => rfl, fun _ hd => settings_setSettings_of_ne _ _ _ _ hd, fun _ => rfl, rfl⟩

theorem finish_setSettings_pokes (s : State) (c : Fin 4) (A : AudioSettings) :
    ∃ s', s.finish (s.block.setSettings c A) .none = .next s' ∧ s.PokedSettings c A s' :=
  ⟨_, rfl, settings_setSettings_self _ _ _, setSettings_onlySettings _ _ _, ⟨rfl, rfl⟩, rfl⟩

section
variable {s s' : State} {c : Fin 4} {A : AudioSettings}

theorem disabled_of_pokedSettings (h : s.PokedSettings c A s') :
    s'.block.disabled c = (A.feedback == 0x01 && (s.block.timer (channelTimer c)).backup == 0x00) := by
  obtain ⟨hsettings, ⟨htimer, -, -, -⟩, -, -⟩ := h
  rw [Block.disabled, hsettings, htimer, Bool.and_comm]

theorem lfsr_low_of_pokedSettings (h : s.PokedSettings c A s') : (s'.block.lfsr c).extractLsb' 0 8 = A.shiftLo := by
  obtain ⟨hsettings, -, -, -⟩ := h
  rw [lfsr_low, hsettings]

theorem lfsr_high_of_pokedSettings (h : s.PokedSettings c A s') :
    (s'.block.lfsr c).extractLsb' 8 4 = (s.block.lfsr c).extractLsb' 8 4 := by
  obtain ⟨-, ⟨htimer, -, -, -⟩, -, -⟩ := h
  rw [lfsr_high, lfsr_high, htimer]

/-- The sample AUDIOOUT returns after a poke of the channel (rules R196, R238). -/
theorem exec_audioOut_of_pokedSettings {c : BitVec 2} (h : s.PokedSettings (channel c) A s') :
    exec (.audioOut (2#4 ++ c)) s' = .next { s' with result := .sample (A.output.signExtend 16) } := by
  obtain ⟨hsettings, -, -, -⟩ := h
  rw [exec_audioOut_channel, hsettings]

end

/-- Settles O20: the three pokes store into one channel's settings, which hold the sample and the LFSR's low byte. -/
theorem volumeOutputShiftPokesStore : Obligations.VolumeOutputShiftPokesStore := by
  refine ⟨fun s c v => finish_setSettings_pokes s (channel c) _, fun s c v => ?_, fun s c v => ?_⟩
  · obtain ⟨s', hexec, hpoked⟩ := finish_setSettings_pokes s (channel c) { s.block.settings (channel c) with output := v }
    exact ⟨s', hexec, hpoked, exec_audioOut_of_pokedSettings hpoked⟩
  · obtain ⟨s', hexec, hpoked⟩ := finish_setSettings_pokes s (channel c) { s.block.settings (channel c) with shiftLo := v }
    exact ⟨s', hexec, hpoked, lfsr_low_of_pokedSettings hpoked, lfsr_high_of_pokedSettings hpoked⟩

/-- Settles O21: the poke stores into one channel's settings, and the fast-path flag reads Backup and Feedback alone. -/
theorem feedbackPokeStores : Obligations.FeedbackPokeStores := by
  intro s c v
  obtain ⟨s', hexec, hpoked⟩ := finish_setSettings_pokes s (channel c) { s.block.settings (channel c) with feedback := v }
  exact ⟨s', hexec, hpoked, disabled_of_pokedSettings hpoked⟩

end Sys2Proof.Proofs
end

section
/-! The faults and the outputs of TICKALL, and the fault of an address no window holds (60_exceptions.md sections 1 to 3, rules
R260 to R263, R267 and R270). -/

namespace Sys2Proof.Proofs

open Sys2Proof Sys2Proof.Machine

/-! ## BAD_ADDRESS (rule R260) -/

section
variable {cfg : Config} {a : Addr}

theorem decodeAddr_eq_none_iff : decodeAddr cfg a = none ↔ ¬ InBaseWindow cfg a ∧ ¬ InAudioWindow cfg a := by
  unfold decodeAddr InBaseWindow InAudioWindow
  split_ifs with hbase haudio
  · simp [hbase]
  · simp [haudio]
  · simp [hbase, haudio]

theorem toInstr_peek_of_decodeAddr_eq_none (h : decodeAddr cfg a = none) :
    Request.toInstr cfg (.peek a) = .error (.badAddress a) := by
  rw [Request.toInstr, h]

theorem toInstr_poke_of_decodeAddr_eq_none (h : decodeAddr cfg a = none) (v : Byte) :
    Request.toInstr cfg (.poke a v) = .error (.badAddress a) := by
  rw [Request.toInstr, h]

theorem toInstr_peek_of_decodeAddr_eq_some {p : BitVec 1 × BitVec 5} (h : decodeAddr cfg a = some p) :
    Request.toInstr cfg (.peek a) = .ok (decodePeek (p.1 ++ p.2)) := by
  rw [Request.toInstr, h]
  exact decode_peek _ 0 0

theorem toInstr_poke_of_decodeAddr_eq_some {p : BitVec 1 × BitVec 5} (h : decodeAddr cfg a = some p) (v : Byte) :
    Request.toInstr cfg (.poke a v) = .ok (decodePoke (p.1 ++ p.2) v) := by
  rw [Request.toInstr, h]
  exact decode_poke _ v 0

end

/-- Settles O8: an address decodes exactly inside the windows; undecoded it is rejected, decoded it gives a PEEK or a POKE word,
and every such word names an instruction. -/
theorem addressesOutsideTheWindowsFault : Obligations.AddressesOutsideTheWindowsFault := by
  refine ⟨fun s a rest hbase haudio hcall => ?_, fun s a v rest hbase haudio hcall => ?_, fun cfg a v hin => ?_⟩
  · exact step_of_rejected hcall (toInstr_peek_of_decodeAddr_eq_none (decodeAddr_eq_none_iff.2 ⟨hbase, haudio⟩))
  · exact step_of_rejected hcall (toInstr_poke_of_decodeAddr_eq_none (decodeAddr_eq_none_iff.2 ⟨hbase, haudio⟩) v)
  · have hsome : decodeAddr cfg a ≠ none := fun h => not_or.2 (decodeAddr_eq_none_iff.1 h) hin
    obtain ⟨p, hp⟩ := Option.ne_none_iff_exists'.1 hsome
    exact ⟨⟨_, toInstr_peek_of_decodeAddr_eq_some hp⟩, ⟨_, toInstr_poke_of_decodeAddr_eq_some hp v⟩⟩

/-! ## TICK_DECREASED (rule R261) -/

theorem execTickAll_of_error {s : State} {t : Tick} {f : Fault} (h : tickAll s.cfg t s.block = .error f) :
    execTickAll t s = .fault f := by
  rw [execTickAll, h]
  rfl

/-- Settles O35: TICKALL compares the tick with `now` before anything else. -/
theorem tickBelowNowFaults : Obligations.TickBelowNowFaults := fun _ _ hbelow =>
  execTickAll_of_error (if_pos hbelow)

/-! ## TICK_OVERFLOW in TICKALL (rules R262, R270) -/

section
variable {cfg : Config} {i : Fin 12} {t : Tick} {b : Block} {w : Sweep} {ids rest : List (Fin 12)}

theorem clockTick_of_overflow (hc : b.clocked t i = true) (hover : 2 ^ 64 ≤ clockedAt cfg (b.timer i).ctla t) :
    clockTick cfg i t b = .error (.tickOverflow i t) := by
  obtain ⟨-, hcen, hlinked, hfast⟩ := clocked_iff.1 hc
  rw [clockTick_of_counting hfast hcen hlinked, reschedule_of_overflow i hover, Except.map]

theorem sweepOne_of_overflow (hc : w.block.clocked t i = true)
    (hover : 2 ^ 64 ≤ clockedAt cfg (w.block.timer i).ctla t) : sweepOne cfg t i w = .error (.tickOverflow i t) := by
  obtain ⟨hdue, -⟩ := clocked_iff.1 hc
  rw [Block.dueAt] at hdue
  rw [sweepOne, if_pos hdue, clockTick_of_overflow hc hover]

theorem sweep_append (cfg : Config) (t : Tick) (ids rest : List (Fin 12)) (w : Sweep) :
    sweep cfg t (ids ++ rest) w = (sweep cfg t ids w).bind (sweep cfg t rest) := by
  induction ids generalizing w with
  | nil => rfl
  | cons j ids ih =>
    rw [List.cons_append, sweep, sweep]
    cases sweepOne cfg t j w with
    | error f => rfl
    | ok v => exact ih v

/-- The loop completes the turns before that of timer `i`, whose reschedules fit, and so meets timer `i` as it found it. -/
theorem sweep_of_overflow (hnodup : (ids ++ i :: rest).Nodup) (hc : w.block.clocked t i = true)
    (hover : 2 ^ 64 ≤ clockedAt cfg (w.block.timer i).ctla t)
    (hfits : ∀ j ∈ ids, w.block.clocked t j = true → clockedAt cfg (w.block.timer j).ctla t < 2 ^ 64) :
    sweep cfg t (ids ++ i :: rest) w = .error (.tickOverflow i t) := by
  obtain ⟨hids, -, hdisjoint⟩ := List.nodup_append.1 hnodup
  have hi : i ∉ ids := fun h => hdisjoint i h i List.mem_cons_self rfl
  obtain ⟨v, hv⟩ := sweep_completes hids (fun j _ => .refl j w.block) hfits
  have hpulsed := onlyPulsed_sweep hi hv
  obtain ⟨htimer, -, -⟩ := hpulsed.sameOwn (linked_of_clocked hc)
  have hturn : sweepOne cfg t i v = .error (.tickOverflow i t) :=
    sweepOne_of_overflow (hpulsed.clocked.trans hc) (htimer ▸ hover)
  rw [sweep_append, hv, Except.bind, sweep, hturn]

end

/-- The loop takes the timers in ascending id (rule R190). -/
theorem timerIds_ascending : timerIds.Pairwise (· < ·) := by
  decide

/-- Settles O36: the timers before the first that overflows have lower ids, so their turns complete. The invariant is not needed:
only pulses reach a timer before its turn, and a clocked timer is not linked. -/
theorem firstTickOverflowFaults : Obligations.FirstTickOverflowFaults := by
  intro s t i _ ht hc hover hfits
  obtain ⟨ids, rest, hsplit⟩ := List.append_of_mem (mem_timerIds i)
  obtain ⟨-, -, hlower⟩ := List.pairwise_append.1 (hsplit ▸ timerIds_ascending)
  have hsweep : sweep s.cfg t timerIds ⟨s.block.setNow t, 0, false⟩ = .error (.tickOverflow i t) := by
    rw [hsplit]
    exact sweep_of_overflow (hsplit ▸ nodup_timerIds) hc hover fun j hj => hfits j (hlower j hj i List.mem_cons_self)
  exact execTickAll_of_error ((if_neg (Nat.not_lt.2 ht)).trans hsweep)

/-! ## The outputs of TICKALL (rules R263, R267) -/

/-- What a zero event leaves of base timer `k`: the sticky flag, DONE and BOUT set (rule R150). -/
def ZeroEventMarked (k : Fin 8) (b : Block) : Prop :=
  b.trigFlag k = true ∧ (b.timer (baseOf k)).done = true ∧ (b.timer (baseOf k)).bout = true

/-- What timer `i` reports of a clock tick or a pulse made on the block `a` comes with a zero event: its interrupt bit, which IE
gates, and the zero event itself, which marks a base timer. -/
structure Backed (i : Fin 12) (a : Block) (o : StepOut) : Prop where
  ticked : BlockTicked a o.block
  bits : ∀ k : Fin 8, o.bits.getLsbD k.val = true → i = baseOf k ∧ o.zero = true ∧ (a.timer i).ie = true
  zero : ∀ k, i = baseOf k → o.zero = true → ZeroEventMarked k o.block

/-- The outputs of a sweep from the block `b`: each mask bit and timer 4's output come with a zero event of their timer. -/
structure OutputsBacked (b : Block) (w : Sweep) : Prop where
  ticked : BlockTicked b w.block
  mask : ∀ k : Fin 8, w.mask.getLsbD k.val = true → (b.timer (baseOf k)).ie = true ∧ ZeroEventMarked k w.block
  timer4 : w.timer4 = true → ZeroEventMarked 4 w.block

section
variable {cfg : Config} {a a' b : Block} {i : Fin 12} {k : Fin 8} {t : Tick} {o : StepOut} {w : Sweep}

theorem ZeroEventMarked.of_blockTicked (h : ZeroEventMarked k a) (ht : BlockTicked a b) : ZeroEventMarked k b := by
  obtain ⟨htrig, hdone, hbout⟩ := h
  exact ⟨ht.trig k htrig, (ht.timer _).done hdone, (ht.timer _).bout hbout⟩

theorem BlockTicked.ie (h : BlockTicked a b) (i : Fin 12) : (b.timer i).ie = (a.timer i).ie := by
  rw [Timer.ie, (h.timer i).ctla, Timer.ie]

theorem zeroEventMarked_countDown (h : (countDown cfg (baseOf k) b).zero = true) :
    ZeroEventMarked k (countDown cfg (baseOf k) b).block := by
  rw [countDown_of_base ((countDown_zero cfg _ b).1 h) (kind_baseOf k)]
  simp [ZeroEventMarked, Timer.zeroEvent, setDoneBout, Timer.done, Timer.bout]

theorem backed_quiet (h : BlockTicked a a') : Backed i a (StepOut.quiet a') :=
  ⟨h, by simp [StepOut.quiet], by simp [StepOut.quiet]⟩

theorem backed_countDown (h : BlockTicked a a') : Backed i a (countDown cfg i a') := by
  refine ⟨h.trans (blockTicked_countDown cfg i a'), fun k hbit => ?_, fun k hi hzero => ?_⟩
  · obtain ⟨hi, hcount, hie⟩ := (bits_countDown k).1 hbit
    exact ⟨hi, (countDown_zero cfg i a').2 hcount, (h.ie i).symm.trans hie⟩
  · subst hi
    exact zeroEventMarked_countDown hzero

theorem backed_clockTick (h : clockTick cfg i t b = .ok o) : Backed i b o := by
  rcases clockTick_eq_ok h with ⟨-, -, rfl⟩ | ⟨-, rfl⟩ | ⟨-, -, -, n, -, rfl⟩
  · exact backed_quiet (.refl b)
  · exact backed_quiet (blockTicked_setTimer (timerTicked_ticked _ _))
  · exact backed_countDown (blockTicked_setTimer (timerTicked_ticked _ _))

theorem backed_tickLinked (cfg : Config) (i : Fin 12) (b : Block) : Backed i b (tickLinked cfg i b) := by
  rcases tickLinked_cases cfg i b with ⟨-, e⟩ | ⟨-, e⟩ <;> rw [e]
  · exact backed_countDown (.refl b)
  · exact backed_quiet (.refl b)

theorem OutputsBacked.absorb (h : OutputsBacked b w) (ho : Backed i w.block o) : OutputsBacked b (w.absorb i o) := by
  refine ⟨h.ticked.trans ho.ticked, fun k hbit => ?_, fun hfour => ?_⟩
  · rw [Sweep.absorb, BitVec.getLsbD_or, Bool.or_eq_true] at hbit
    obtain hbefore | hnow := hbit
    · obtain ⟨hie, hmarked⟩ := h.mask k hbefore
      exact ⟨hie, hmarked.of_blockTicked ho.ticked⟩
    · obtain ⟨rfl, hzero, hie⟩ := ho.bits k hnow
      exact ⟨(h.ticked.ie _).symm.trans hie, ho.zero k rfl hzero⟩
  · rw [Sweep.absorb, Bool.or_eq_true, Bool.and_eq_true, beq_iff_eq] at hfour
    obtain hbefore | ⟨rfl, hzero⟩ := hfour
    · exact (h.timer4 hbefore).of_blockTicked ho.ticked
    · exact ho.zero 4 rfl hzero

theorem blockTicked_setNow (b : Block) (t : Tick) : BlockTicked b (b.setNow t) :=
  ⟨fun _ => .refl _, fun _ => rfl, fun _ => rfl, fun _ => id⟩

theorem outputsBacked_tickAll (h : tickAll cfg t b = .ok w) : OutputsBacked b w := by
  obtain ⟨-, hsweep⟩ := tickAll_eq_ok.1 h
  have hstart : OutputsBacked b ⟨b.setNow t, 0, false⟩ := ⟨blockTicked_setNow b t, by simp, by simp⟩
  exact sweep_induct (OutputsBacked b) (fun _ _ _ hw _ ho => hw.absorb (backed_clockTick ho))
    (fun j w hw => hw.absorb (backed_tickLinked cfg j w.block)) timerIds _ w hsweep hstart

end

/-- Settles O39: in every turn and pulse of the sweep, an output comes with a zero event, whose marks TICKALL never clears. -/
theorem maskBitsComeWithZeroEvents : Obligations.MaskBitsComeWithZeroEvents := by
  intro s s' t mask timer4 h hresult
  obtain ⟨w, hw, rfl⟩ := execTickAll_eq_next.1 h
  obtain ⟨rfl, rfl⟩ := Result.tickAll.inj hresult
  obtain ⟨-, hmask, htimer4⟩ := outputsBacked_tickAll hw
  exact ⟨hmask, htimer4⟩

end Sys2Proof.Proofs
end

section
/-! What the block does after RESET, and how a timer is started (70_reset_and_hazards.md sections 1 and 2, rules R292 and R293). -/

namespace Sys2Proof.Proofs

open Sys2Proof Sys2Proof.Machine

/-! ## ARM (rules R117, R293) -/

theorem asmByte_toNat (v : Byte) : asmByte v.toNat = .ok v := by
  rw [asmByte, if_pos (by omega), BitVec.ofInt_natCast, BitVec.ofNat_toNat, BitVec.setWidth_eq]

theorem expandArm_base (i : BitVec 3) (v a : Byte) :
    expandArm i.toNat v.toNat a.toNat = .ok [.pokeBkup i v, .pokeCnt i v, .pokeCtla i a] := by
  simp only [expandArm, asmByte_toNat, Except.bind]
  rw [if_pos (by omega), asmBaseId_toNat]
  rfl

theorem expandArm_audio (c : BitVec 2) (v a : Byte) :
    expandArm (8 + c.toNat) v.toNat a.toNat = .ok [.pokeAbkup c v, .pokeAcnt c v, .pokeActla c a] := by
  have hid := asmAudioId_toNat c
  rw [Nat.cast_add, Nat.cast_ofNat] at hid
  simp only [expandArm, asmByte_toNat, Except.bind]
  rw [if_neg (by omega), hid]
  rfl

section
variable {s s' s'' : State} {i : Fin 12} {T T' : Timer} {v a : Byte}

/-- Of two pokes of one timer, the second's record stands. -/
theorem pokedTimer_trans (h : s.PokedTimer i T s') (h' : s'.PokedTimer i T' s'') : s.PokedTimer i T' s'' := by
  obtain ⟨-, ⟨htimers, hsettings, htrig, hnow⟩, ⟨hcfg, hpending⟩, -⟩ := h
  obtain ⟨htimer', ⟨htimers', hsettings', htrig', hnow'⟩, ⟨hcfg', hpending'⟩, hresult'⟩ := h'
  exact ⟨htimer', ⟨fun j hj => (htimers' j hj).trans (htimers j hj), fun c => (hsettings' c).trans (hsettings c),
    fun k => (htrig' k).trans (htrig k), hnow'.trans hnow⟩, ⟨hcfg'.trans hcfg, hpending'.trans hpending⟩, hresult'⟩

theorem clockedAt_of_pokedTimer (h : s.PokedTimer i T s') (a : Byte) :
    clockedAt s'.cfg a s'.block.now = clockedAt s.cfg a s.block.now := by
  obtain ⟨-, ⟨-, -, -, hnow⟩, ⟨hcfg, -⟩, -⟩ := h
  rw [hcfg, hnow]

/-- A Count poke completes where its reschedule, if it makes one, fits; `next` aside, the record is the same either way. -/
theorem countPoke_completes
    (hfits : Arming (s.block.timer i).ctla → v ≠ 0 → clockedAt s.cfg (s.block.timer i).ctla s.block.now < 2 ^ 64) :
    ∃ next s', s.finishPoke (setCount s.cfg i v s.block) = .next s' ∧
      s.PokedTimer i { s.block.timer i with count := v, next := next } s' := by
  obtain ⟨hkeeps, hreschedules, -⟩ := countPoked_setCount s i v
  by_cases hres : Arming (s.block.timer i).ctla ∧ v ≠ 0
  · obtain ⟨harm, hv⟩ := hres
    exact ⟨_, hreschedules harm hv (hfits harm hv)⟩
  · exact ⟨_, hkeeps hres⟩

/-- The three pokes of ARM on one timer, base or audio: each completes, and the ControlA poke gives `next` its last value. -/
theorem arm_completes (h : ArmFits s i v a) :
    ∃ s₁ s₂ s₃, s.finish (storeBackup i v s.block) .none = .next s₁ ∧
      s₁.finishPoke (setCount s₁.cfg i v s₁.block) = .next s₂ ∧
      s₂.finishPoke (setControlA s₂.cfg i a s₂.block) = .next s₃ ∧ s.PokedTimer i (armedTimer s i v a) s₃ := by
  obtain ⟨harm, hfits, hcountFits⟩ := h
  obtain ⟨s₁, hbackup, hpoked₁⟩ := finish_setTimer_pokes s i { s.block.timer i with backup := v }
  have ⟨htimer₁, _⟩ := hpoked₁
  obtain ⟨next, s₂, hcount, hpoked₂⟩ := countPoke_completes (s := s₁) (i := i) (v := v) <| by
    rwa [clockedAt_of_pokedTimer hpoked₁, htimer₁]
  rw [htimer₁] at hpoked₂
  have hpoked₂ := pokedTimer_trans hpoked₁ hpoked₂
  have ⟨htimer₂, _⟩ := hpoked₂
  obtain ⟨-, hcontrolA, -⟩ := controlAPoked_setControlA s₂ i a
  rw [clockedAt_of_pokedTimer hpoked₂, htimer₂] at hcontrolA
  obtain ⟨s₃, hctla, hpoked₃⟩ := hcontrolA harm hfits
  exact ⟨s₁, s₂, s₃, hbackup, hcount, hctla, pokedTimer_trans hpoked₂ hpoked₃⟩

end

/-- Settles O26: ARM expands to the three pokes of one timer, and these complete and leave it armed. -/
theorem armStartsATimer : Obligations.ArmStartsATimer := by
  refine ⟨fun s i v a h => ?_, fun s c v a h => ?_⟩
  · obtain ⟨s₁, s₂, s₃, harm⟩ := arm_completes h
    exact ⟨s₁, s₂, s₃, expandArm_base i v a, harm⟩
  · obtain ⟨s₁, s₂, s₃, harm⟩ := arm_completes h
    exact ⟨s₁, s₂, s₃, expandArm_audio c v a, harm⟩

/-! ## From reset (rule R292) -/

theorem next_reset (i : Fin 12) : (Block.reset.timer i).next = never := by
  rw [timer_reset]
  rfl

/-- A ControlA read of the byte 0 gives 0, whatever CTLA_BIT6_READ is. -/
theorem readControlA_zero (cfg : Config) : readControlA cfg 0 = 0 := by
  unfold readControlA
  cases cfg.ctlaBit6Read <;> rfl

theorem peeked_eq_next_of_zero {s : State} {v : Byte} (h : v = 0) : s.peeked v = .next { s with result := .byte 0x00 } :=
  h ▸ peeked_eq_next s v

theorem isPeek_iff {ins : Instr} : isPeek ins = true ↔ opField (encodeWord ins) = 0 := beq_iff_eq

/-- An instruction whose word has an op other than 0000 is no PEEK row (rule R108). -/
theorem not_isPeek_of_opField {ins : Instr} {op : BitVec 4} (hop : opField (encodeWord ins) = op) (hne : op ≠ 0) :
    ¬ isPeek ins = true :=
  fun h => hne (hop.symm.trans (isPeek_iff.1 h))

theorem exec_peek_reset (cfg : Config) {ins : Instr} (h : isPeek ins = true) :
    exec ins (State.resetWith cfg) = .next { State.resetWith cfg with result := .byte 0x00 } := by
  cases ins with
  | peekBkup _ | peekCnt _ | peekCtlb _ | peekAbkup _ | peekAcnt _ | peekActlb _ =>
    exact peeked_eq_next_of_zero (by simp [State.resetWith, Timer.reset])
  | peekCtla _ | peekActla _ =>
    exact peeked_eq_next_of_zero (by simpa [State.resetWith, Timer.reset] using readControlA_zero cfg)
  | peekAvol _ | peekAfb _ | peekAout _ | peekAshift _ =>
    exact peeked_eq_next_of_zero (by simp [State.resetWith, AudioSettings.reset])
  | pokeBkup _ _ | pokeCtla _ _ | pokeCnt _ _ | pokeCtlb _ _ | pokeAvol _ _ | pokeAfb _ _ | pokeAout _ _
  | pokeAshift _ _ | pokeAbkup _ _ | pokeActla _ _ | pokeAcnt _ _ | pokeActlb _ _ =>
    exact absurd h (not_isPeek_of_opField (opField_append 1 _) (by decide))
  | tickAll _ | hsync | vsync | reset => simp [isPeek, encodeWord] at h
  | trig _ => exact absurd h (not_isPeek_of_opField (op_trig _) (by decide))
  | audioOut _ => exact absurd h (not_isPeek_of_opField (op_audioOut _) (by decide))

/-- Settles O12: after reset no timer has a next-trigger tick, so none is due, and every byte that a peek reads is 0. -/
theorem fromResetNothingRuns : Obligations.FromResetNothingRuns := fun cfg =>
  ⟨fun t => tickAllWithNoTimerDue (State.resetWith cfg) t (Nat.zero_le _) fun i _ hn =>
      absurd ((next_reset i).symm.trans hn) nofun,
    fun _ => exec_peek_reset cfg⟩

end Sys2Proof.Proofs
end

section
/-! The words of the test vectors (95_test_vectors.md V1 to V15), from the statements about the decoder. -/

namespace Sys2Proof.Proofs

open Sys2Proof Sys2Proof.Machine

theorem decode_of_reservedWord {x : Transaction} (h : ReservedWord x.word) : decode x = .error (.reservedOp x.word) := by
  obtain ⟨hreserved, -⟩ := reservedWordsAreRejected x
  exact (hreserved _).2 ⟨rfl, h⟩

theorem decode_of_badTimerWord {x : Transaction} (h : BadTimerWord x.word) : decode x = .error (.badTimerId x.word) := by
  obtain ⟨-, hbadTimer⟩ := reservedWordsAreRejected x
  exact (hbadTimer _).2 ⟨rfl, h⟩

/-- Settles O5: seven of the words are the encodings of well-formed instructions, the other two are of the rejected classes. -/
theorem sampleWordsDecode : Obligations.SampleWordsDecode := by
  have hinstr (i : Instr) (hwf : i.wellFormed = true) : decode (encode i) = .ok i := encodedInstructionsDecodeBack i hwf
  have hbadTimer : BadTimerWord 0b0101001100 := badTimerWord_iff.2 (by decide)
  have hreserved : ReservedWord 0b0010000001 := reservedWord_iff.2 (by decide)
  exact ⟨hinstr (.peekBkup 0) rfl, hinstr (.pokeCtla 3 0x18) rfl, hinstr (.peekActlb 1) rfl, hinstr (.pokeAvol 0 0xF6) rfl,
    hinstr (.tickAll 16) rfl, hinstr (.trig 11) rfl, hinstr (.audioOut 63) rfl,
    decode_of_badTimerWord hbadTimer, decode_of_reservedWord hreserved⟩

end Sys2Proof.Proofs
end

section
/-! The bits of ControlB that TICKALL never writes (10_state.md sections 2 and 3), and with them the whole frame of TICKALL. -/

namespace Sys2Proof.Proofs

open Sys2Proof Sys2Proof.Machine

/-- `f` reads of the ControlB byte of timer `i` nothing that the clock, a zero event or an LFSR step writes: not BIN (rule R144),
not DONE and BOUT (rule R150), and not the LFSR nibble of an audio timer (rule R174). -/
structure ReadsUnwritten {α : Type} (i : Fin 12) (f : Byte → α) : Prop where
  clearBin : ∀ ctlb, f (clearBin ctlb) = f ctlb
  setDoneBout : ∀ ctlb, f (setDoneBout ctlb) = f ctlb
  lfsrNibble : ∀ c, i = channelTimer c → ∀ ctlb lfsr, f (withLfsrNibble ctlb lfsr) = f ctlb

theorem readsUnwritten_bit2 (i : Fin 12) : ReadsUnwritten i (·.getLsbD 2) where
  clearBin _ := by simp [Machine.clearBin]
  setDoneBout _ := by simp [Machine.setDoneBout]
  lfsrNibble _ _ _ _ := getLsbD_withLfsrNibble _ _ (by decide)

theorem readsUnwritten_baseNibble (k : Fin 8) : ReadsUnwritten (baseOf k) (·.extractLsb' 4 4) where
  clearBin := lfsrNibble_clearBin
  setDoneBout := lfsrNibble_setDoneBout
  lfsrNibble c hc := absurd hc.symm (channelTimer_ne_baseOf c k)

section
variable {α : Type} {f : Byte → α} {cfg : Config} {i j : Fin 12} {t : Tick} {b : Block} {o : StepOut} {w : Sweep}

theorem ReadsUnwritten.countDown (h : ReadsUnwritten i f) (cfg : Config) (j : Fin 12) (b : Block) :
    f ((countDown cfg j b).block.timer i).ctlb = f (b.timer i).ctlb := by
  rcases eq_or_ne i j with rfl | hij
  · rcases countDown_cases cfg i b with ⟨-, e⟩ | ⟨k, -, -, e⟩ | ⟨c, -, hc, e⟩ <;> rw [e]
    · simp [StepOut.quiet, Timer.decremented]
    · simp [Timer.zeroEvent, h.setDoneBout]
    · obtain rfl := eq_channelTimer_of_kind hc
      simp [timer_lfsrStep_self, Block.steppedTimer, h.lfsrNibble c rfl, Timer.zeroEvent, h.setDoneBout]
  · obtain ⟨htimer, -⟩ := countDown_onlyOwn cfg j b
    rw [htimer i hij]

theorem ReadsUnwritten.ticked (h : ReadsUnwritten i f) (j : Fin 12) (b : Block) (next : TickInf) :
    f ((b.setTimer j ((b.timer j).ticked next)).timer i).ctlb = f (b.timer i).ctlb := by
  rcases eq_or_ne i j with rfl | hij
  · simp [Timer.ticked, h.clearBin]
  · rw [timer_setTimer_of_ne _ _ _ _ hij]

theorem ReadsUnwritten.tickLinked (h : ReadsUnwritten i f) (cfg : Config) (j : Fin 12) (b : Block) :
    f ((tickLinked cfg j b).block.timer i).ctlb = f (b.timer i).ctlb := by
  rcases tickLinked_cases cfg j b with ⟨-, e⟩ | ⟨-, e⟩ <;> rw [e]
  · exact h.countDown cfg j b
  · rfl

theorem ReadsUnwritten.clockTick (h : ReadsUnwritten i f) (ho : clockTick cfg j t b = .ok o) :
    f (o.block.timer i).ctlb = f (b.timer i).ctlb := by
  rcases clockTick_eq_ok ho with ⟨-, -, rfl⟩ | ⟨-, rfl⟩ | ⟨-, -, -, n, -, rfl⟩
  · rfl
  · exact h.ticked j b never
  · exact (h.countDown cfg j _).trans (h.ticked j b (some n))

theorem ReadsUnwritten.tickAll (h : ReadsUnwritten i f) (hw : tickAll cfg t b = .ok w) :
    f (w.block.timer i).ctlb = f (b.timer i).ctlb := by
  obtain ⟨-, hsweep⟩ := tickAll_eq_ok.1 hw
  exact sweep_induct (fun v => f (v.block.timer i).ctlb = f (b.timer i).ctlb)
    (fun _ _ _ hv _ ho => (h.clockTick ho).trans hv) (fun j v hv => (h.tickLinked cfg j v.block).trans hv)
    timerIds _ w hsweep rfl

end

/-- Settles O38: `BlockTicked` gives the registers and the sticky flags, `ReadsUnwritten` the bits of ControlB. -/
theorem tickAllFrame : Obligations.TickAllFrame := by
  intro s s' t h
  obtain ⟨w, hw, rfl⟩ := execTickAll_eq_next.1 h
  obtain ⟨hnow, -⟩ := tickAll_eq_ok.1 hw
  obtain ⟨htimer, hvolume, hfeedback, htrig⟩ := blockTicked_tickAll hw
  exact ⟨⟨rfl, rfl⟩, now_tickAll hw, hnow,
    fun i => ⟨(htimer i).backup, (htimer i).ctla, (readsUnwritten_bit2 i).tickAll hw⟩,
    fun k => (readsUnwritten_baseNibble k).tickAll hw,
    fun c => ⟨hvolume c, hfeedback c⟩, htrig, w.mask, w.timer4, rfl⟩

end Sys2Proof.Proofs
end
